-- ==== Sys2Proof/Word.lean ====
section
/-! DEFINITION. The words of the block: bytes, 12-bit samples (00_scope.md R6, R7). -/

namespace Sys2Proof

/-- A byte; bit 0 is the least significant bit (00_scope.md R6). -/
abbrev Byte := BitVec 8

/-- A 12-bit raw ADC reading or calibration value (10_state.md R24, 42_parser.md R145). -/
abbrev Word12 := BitVec 12

/-- The mathematical integer a 12-bit register holds; arithmetic on it never wraps (00_scope.md R7). -/
def Word12.int (w : Word12) : Int := (w.toNat : Int)

end Sys2Proof
end

