-- ==== Sys2Proof/Config.lean ====
section
/-! DEFINITION. The implementation parameters of 00_scope.md R4: the constants the spec fixes, and the open ones,
which have no value here (free values). -/

namespace Sys2Proof

/-- SEQ_SHARING (00_scope.md R4, 10_state.md R31): every instance counts its own frames, or all share one counter. -/
inductive SeqSharing where
  | perInstance
  | shared
deriving DecidableEq, Repr, Inhabited

namespace Config

/-! ### Fixed by the source (00_scope.md R4) -/

/-- REPORT_LEN: length of every outbound frame and every inbound report. -/
def reportLen : Nat := 49

/-- MAX_PAYLOAD: the longest subcommand payload. -/
def maxPayload : Nat := 38

/-- MAX_FLASH_READ: larger flash reads are clamped to it. -/
def maxFlashRead : Nat := 29

/-- DATA_POS: the first data byte of a flash reply. -/
def dataPos : Nat := 20

/-- The byte whose bit 7 is ACK_BIT. -/
def ackPos : Nat := 13

/-- PID_LEFT. -/
def pidLeft : BitVec 16 := 0x2006#16

/-- PID_RIGHT. -/
def pidRight : BitVec 16 := 0x2007#16

/-! ### Decided by the spec from general knowledge (log entry 7) -/

/-- RID_OUT_SUBCMD (D6). PRESUMED by the spec, unsafe: log entry 7. -/
def ridOutSubcmd : Byte := 0x01#8

/-- RID_OUT_RUMBLE (D6). PRESUMED by the spec, unsafe: log entry 7. -/
def ridOutRumble : Byte := 0x10#8

/-- RID_STD_REPLY (D12). PRESUMED by the spec, unsafe: log entry 7. -/
def ridStdReply : Byte := 0x21#8

/-- RID_STD_FULL (D12). PRESUMED by the spec, unsafe: log entry 7. -/
def ridStdFull : Byte := 0x30#8

/-- RID_NFC_IR (D12). PRESUMED by the spec, unsafe: log entry 7. -/
def ridNfcIr : Byte := 0x31#8

/-- SUBCMD_FLASH_READ (D28). PRESUMED by the spec, unsafe: log entry 7. -/
def subcmdFlashRead : Byte := 0x10#8

/-- ECHO_POS, the byte of a reply that echoes the subcommand id (D28). PRESUMED by the spec, unsafe: log entry 7. -/
def echoPos : Nat := 14

/-! ### OPEN: free values, with no body -/

/-- SEQ_INIT (10_state.md R32, D9): the power-on value of each instance's sequence counter, any of 0..15.
Nothing constrains it (DESIGN CHOICE, safe: log entry 4). -/
opaque seqInit : Nat → BitVec 4

/-- SEQ_SHARING (10_state.md R31, D10): which of the two settings the integration chose.
Nothing constrains it (DESIGN CHOICE, safe: log entry 5). -/
opaque seqSharing : SeqSharing

/-- How many instances the system holds beside the one it starts with (60_exceptions.md R220).
Nothing constrains it (DESIGN CHOICE, safe: log entry 6). -/
opaque peerCount : Nat

end Config

end Sys2Proof
end

