-- ==== Sys2Proof/Syntax.lean ====
section
/-! DEFINITION. The commands of the block as syntax: one constructor of `Instr` per row of spec/opcode_table.json,
with the operands of 30_encoding.md R62. -/

namespace Sys2Proof

/-- RAW[0..8]: the nine bytes of a calibration section (30_encoding.md R62, R78). -/
structure Raw9 where
  b0 : Byte
  b1 : Byte
  b2 : Byte
  b3 : Byte
  b4 : Byte
  b5 : Byte
  b6 : Byte
  b7 : Byte
  b8 : Byte
deriving DecidableEq, Repr

/-- The nine bytes in stream order. -/
def Raw9.bytes (r : Raw9) : List Byte := [r.b0, r.b1, r.b2, r.b3, r.b4, r.b5, r.b6, r.b7, r.b8]

/-- PARAMS[0..4]: the five bytes of the stick-parameter read (30_encoding.md R62, R79). -/
structure Params5 where
  p0 : Byte
  p1 : Byte
  p2 : Byte
  p3 : Byte
  p4 : Byte
deriving DecidableEq, Repr

/-- The five bytes in stream order. -/
def Params5.bytes (p : Params5) : List Byte := [p.p0, p.p1, p.p2, p.p3, p.p4]

/-- RUMBLE[0..7]: the eight bytes of a rumble override (30_encoding.md R62). -/
structure Rumble8 where
  r0 : Byte
  r1 : Byte
  r2 : Byte
  r3 : Byte
  r4 : Byte
  r5 : Byte
  r6 : Byte
  r7 : Byte
deriving DecidableEq, Repr

/-- The eight bytes in stream order, which is their order at frame bytes 2..9. -/
def Rumble8.bytes (r : Rumble8) : List Byte := [r.r0, r.r1, r.r2, r.r3, r.r4, r.r5, r.r6, r.r7]

/-- One constructor per row of spec/opcode_table.json. A byte sequence with a length operand is its list of bytes:
PLEN and LEN are the list's length (DEDUCED, safe: log entry 11). The last five rows are frame kinds of the wire, "not a command":
no byte of the command stream decodes to them (DEDUCED, safe: log entry 8). -/
inductive Instr where
  /-- CMD = 0x01: SUBCMD and PAY[0..PLEN-1] (40_framer.md R101). -/
  | encodeSubcmd (subcmd : Byte) (pay : List Byte)
  /-- CMD = 0x11: SUBCMD, RUMBLE[0..7] and PAY[0..PLEN-1] (40_framer.md R101). -/
  | encodeSubcmdRo (subcmd : Byte) (rumble : Rumble8) (pay : List Byte)
  /-- CMD = 0x02 (40_framer.md R102). -/
  | encodeRumble
  /-- CMD = 0x03: FRAME[0..LEN-1] (42_parser.md R140). -/
  | decode (frame : List Byte)
  /-- CMD = 0x04: PID (43_calibration.md R160). -/
  | setSide (pid : BitVec 16)
  /-- CMD = 0x05: RAW[0..8] (43_calibration.md R163). -/
  | calLoadUser (raw : Raw9)
  /-- CMD = 0x06: RAW[0..8] (43_calibration.md R165). -/
  | calLoadFactory (raw : Raw9)
  /-- CMD = 0x07: PARAMS[0..4] (43_calibration.md R166). -/
  | calSetDeadzone (params : Params5)
  /-- CMD = 0x08: the sample (H, V) (43_calibration.md R170). -/
  | classify (h v : Word12)
  /-- CMD = 0x09: RAW[0..8] (43_calibration.md R162). -/
  | unmarshal (raw : Raw9)
  /-- CMD = 0x0A: ADDR and SIZE (41_flash.md R121). -/
  | flashReq (addr : BitVec 32) (size : Byte)
  /-- CMD = 0x0B: FRAME[0..LEN-1] (41_flash.md R122). -/
  | flashReply (frame : List Byte)
  /-- CMD = 0x0C (41_flash.md R125). -/
  | flashTimeout
  /-- CMD = 0x0D (44_control.md R200). -/
  | readState
  /-- CMD = 0x0E (44_control.md R201). -/
  | sessionClear
  /-- CMD = 0x00: reserved (44_control.md R202). -/
  | reservedOp0
  /-- CMD = 0x0F: reserved (44_control.md R202). -/
  | reservedOpF
  /-- RO = 1 with OP other than 0x1, CMD[7:5] = 0: reserved (44_control.md R202). -/
  | reservedRo (op : BitVec 4)
  /-- CMD[7:5] other than 0: reserved (44_control.md R202). -/
  | reservedHi (cmd : Byte)
  /-- Not a command: an outbound subcommand frame on the wire (30_encoding.md R66). -/
  | wireOutSubcmd (frame : List Byte)
  /-- Not a command: an outbound rumble-only frame on the wire (30_encoding.md R67). -/
  | wireOutRumble (frame : List Byte)
  /-- Not a command: an inbound standard-with-replies report on the wire (30_encoding.md R69, R70). -/
  | wireInStdReply (frame : List Byte)
  /-- Not a command: an inbound standard-full report on the wire (30_encoding.md R69, R70). -/
  | wireInStdFull (frame : List Byte)
  /-- Not a command: an inbound nfc/ir report on the wire (30_encoding.md R69, R70). -/
  | wireInNfcIr (frame : List Byte)
deriving DecidableEq, Repr

end Sys2Proof
end

