-- ==== Sys2Proof/WellFormed.lean ====
section
/-! DEFINITION. Which terms of `Instr` stand for something the encodings of 30_encoding.md can spell. -/

namespace Sys2Proof

/-- The row is a command or a reserved descriptor, which the command stream can carry; the five wire rows are
"not a command" (spec/opcode_table.json). -/
def Instr.isCommand : Instr → Bool
  | .wireOutSubcmd _ | .wireOutRumble _ | .wireInStdReply _ | .wireInStdFull _ | .wireInNfcIr _ => false
  | .encodeSubcmd _ _ | .encodeSubcmdRo _ _ _ | .encodeRumble | .decode _ | .setSide _ | .calLoadUser _
  | .calLoadFactory _ | .calSetDeadzone _ | .classify _ _ | .unmarshal _ | .flashReq _ _ | .flashReply _
  | .flashTimeout | .readState | .sessionClear | .reservedOp0 | .reservedOpF | .reservedRo _ | .reservedHi _ => true

/-- A length operand is one byte: the sequence it counts has at most 255 bytes (30_encoding.md R62). -/
def lengthFits (bytes : List Byte) : Bool := bytes.length ≤ 255

/-- A frame of the wire is 49 bytes and its byte 0 names its kind (30_encoding.md R66, R67, R69, R70). -/
def isWireFrame (rid : Byte) (frame : List Byte) : Bool :=
  frame.length == Config.reportLen && frame.head? == some rid

/-- The checks of an instruction's fields; a constructor with fixed-width operands has none. -/
def Instr.wellFormed : Instr → Bool
  | .encodeSubcmd _ pay => lengthFits pay
  | .encodeSubcmdRo _ _ pay => lengthFits pay
  | .decode frame => lengthFits frame
  | .flashReply frame => lengthFits frame
  | .reservedRo op => op != 1#4
  | .reservedHi cmd => cmd.extractLsb' 5 3 != 0#3
  | .wireOutSubcmd frame => isWireFrame Config.ridOutSubcmd frame
  | .wireOutRumble frame => isWireFrame Config.ridOutRumble frame
  | .wireInStdReply frame => isWireFrame Config.ridStdReply frame
  | .wireInStdFull frame => isWireFrame Config.ridStdFull frame
  | .wireInNfcIr frame => isWireFrame Config.ridNfcIr frame
  | .encodeRumble | .setSide _ | .calLoadUser _ | .calLoadFactory _ | .calSetDeadzone _ | .classify _ _
  | .unmarshal _ | .flashReq _ _ | .flashTimeout | .readState | .sessionClear | .reservedOp0 | .reservedOpF => true

end Sys2Proof
end

