-- ==== Sys2Proof/Decode.lean ====
section
/-! DEFINITION. The command decoder, total on any byte stream and rejecting by name; after it the encoder, written
from the same table (30_encoding.md R60 to R64, R71, R72), and the reader of wire frames (R66 to R70). -/

namespace Sys2Proof

/-! ### Fields of a word (00_scope.md R6) -/

/-- A word of `w` bits that holds `x` with its bit 0 at bit `lo`, and zeros elsewhere. -/
def fieldAt (w lo : Nat) {n : Nat} (x : BitVec n) : BitVec w := x.setWidth w <<< lo

/-! ### Nibble-interleave packing (30_encoding.md R71, R72; 90_conflicts.md C2) -/

/-- R71: two 12-bit values from three bytes: `first = b0 | ((b1 & 0x0F) << 8)`, `second = (b1 >> 4) | (b2 << 4)`. -/
def unpack12 (b0 b1 b2 : Byte) : Word12 × Word12 :=
  (fieldAt 12 0 b0 ||| fieldAt 12 8 (b1 &&& 0x0F#8), fieldAt 12 0 (b1 >>> 4) ||| fieldAt 12 4 b2)

/-- R72, byte 0: `first & 0xFF`. -/
def packByte0 (first : Word12) : Byte := (first &&& 0xFF#12).setWidth 8

/-- R72, byte 1: `((first >> 8) & 0x0F) | ((second & 0x0F) << 4)`. -/
def packByte1 (first second : Word12) : Byte :=
  fieldAt 8 0 ((first >>> 8) &&& 0x0F#12) ||| fieldAt 8 4 (second &&& 0x0F#12)

/-- R72, byte 2: `(second >> 4) & 0xFF`. -/
def packByte2 (second : Word12) : Byte := ((second >>> 4) &&& 0xFF#12).setWidth 8

/-! ### Little-endian operands (20_memory.md R44) -/

/-- A 16-bit operand, low byte first. -/
def le16 (b0 b1 : Byte) : BitVec 16 := fieldAt 16 0 b0 ||| fieldAt 16 8 b1

/-- A 32-bit operand, low byte first. -/
def le32 (b0 b1 b2 b3 : Byte) : BitVec 32 :=
  fieldAt 32 0 b0 ||| fieldAt 32 8 b1 ||| fieldAt 32 16 b2 ||| fieldAt 32 24 b3

/-- Byte `n` of a 32-bit value, byte 0 being bits [7:0]. -/
def byteOf32 (w : BitVec 32) (n : Nat) : Byte := w.extractLsb' (8 * n) 8

/-- Byte `n` of a 16-bit value, byte 0 being bits [7:0]. -/
def byteOf16 (w : BitVec 16) (n : Nat) : Byte := w.extractLsb' (8 * n) 8

/-! ### The decoder -/

/-- Why no command can be read from the front of a stream. -/
inductive Reject where
  /-- The stream is empty: no descriptor has been presented. -/
  | noCommand
  /-- The stream ends inside the operands of the named command (60_exceptions.md R225). -/
  | incomplete (mnemonic : String)
deriving DecidableEq, Repr

/-- What the decoder answers: the command at the front of the stream and the bytes after it, or why there is none. -/
abbrev Decoded := Except Reject (Instr × List Byte)

/-- The first `n` bytes and the rest, if there are `n`. -/
def takeBytes (n : Nat) (bytes : List Byte) : Option (List Byte × List Byte) :=
  if n ≤ bytes.length then some (bytes.take n, bytes.drop n) else none

/-- A length byte, then that many bytes (PLEN and PAY, LEN and FRAME). -/
def takeCounted : List Byte → Option (List Byte × List Byte)
  | [] => none
  | len :: rest => takeBytes len.toNat rest

/-- RAW[0..8]. -/
def takeRaw9 : List Byte → Option (Raw9 × List Byte)
  | b0 :: b1 :: b2 :: b3 :: b4 :: b5 :: b6 :: b7 :: b8 :: rest => some (⟨b0, b1, b2, b3, b4, b5, b6, b7, b8⟩, rest)
  | _ => none

/-- PARAMS[0..4]. -/
def takeParams5 : List Byte → Option (Params5 × List Byte)
  | p0 :: p1 :: p2 :: p3 :: p4 :: rest => some (⟨p0, p1, p2, p3, p4⟩, rest)
  | _ => none

/-- Operands of ENCODE_SUBCMD (R62): SUBCMD, PLEN, PAY. -/
def readEncodeSubcmd : List Byte → Option (Instr × List Byte)
  | subcmd :: rest => (takeCounted rest).map fun (pay, rest) => (.encodeSubcmd subcmd pay, rest)
  | [] => none

/-- Operands of ENCODE_SUBCMD.RO (R62): SUBCMD, PLEN, RUMBLE[0..7], PAY. -/
def readEncodeSubcmdRo : List Byte → Option (Instr × List Byte)
  | subcmd :: plen :: r0 :: r1 :: r2 :: r3 :: r4 :: r5 :: r6 :: r7 :: rest =>
    (takeBytes plen.toNat rest).map fun (pay, rest) =>
      (.encodeSubcmdRo subcmd ⟨r0, r1, r2, r3, r4, r5, r6, r7⟩ pay, rest)
  | _ => none

/-- Operands of DECODE (R62): LEN, FRAME. -/
def readDecode (bytes : List Byte) : Option (Instr × List Byte) :=
  (takeCounted bytes).map fun (frame, rest) => (.decode frame, rest)

/-- Operands of SET_SIDE (R62): PID, low byte first. -/
def readSetSide : List Byte → Option (Instr × List Byte)
  | p0 :: p1 :: rest => some (.setSide (le16 p0 p1), rest)
  | _ => none

/-- Operands of CAL_LOAD_USER (R62): RAW. -/
def readCalLoadUser (bytes : List Byte) : Option (Instr × List Byte) :=
  (takeRaw9 bytes).map fun (raw, rest) => (.calLoadUser raw, rest)

/-- Operands of CAL_LOAD_FACTORY (R62): RAW. -/
def readCalLoadFactory (bytes : List Byte) : Option (Instr × List Byte) :=
  (takeRaw9 bytes).map fun (raw, rest) => (.calLoadFactory raw, rest)

/-- Operands of CAL_SET_DEADZONE (R62): PARAMS. -/
def readCalSetDeadzone (bytes : List Byte) : Option (Instr × List Byte) :=
  (takeParams5 bytes).map fun (params, rest) => (.calSetDeadzone params, rest)

/-- Operands of CLASSIFY (R62): the pair (H, V) packed by R71. -/
def readClassify : List Byte → Option (Instr × List Byte)
  | b0 :: b1 :: b2 :: rest => some (.classify (unpack12 b0 b1 b2).1 (unpack12 b0 b1 b2).2, rest)
  | _ => none

/-- Operands of UNMARSHAL (R62): RAW. -/
def readUnmarshal (bytes : List Byte) : Option (Instr × List Byte) :=
  (takeRaw9 bytes).map fun (raw, rest) => (.unmarshal raw, rest)

/-- Operands of FLASH_REQ (R62): ADDR, low byte first, then SIZE. -/
def readFlashReq : List Byte → Option (Instr × List Byte)
  | a0 :: a1 :: a2 :: a3 :: size :: rest => some (.flashReq (le32 a0 a1 a2 a3) size, rest)
  | _ => none

/-- Operands of FLASH_REPLY (R62): LEN, FRAME. -/
def readFlashReply (bytes : List Byte) : Option (Instr × List Byte) :=
  (takeCounted bytes).map fun (frame, rest) => (.flashReply frame, rest)

/-- The command, or the rejection that names it when its operands are not all there (60_exceptions.md R225). -/
def orIncomplete (mnemonic : String) : Option (Instr × List Byte) → Decoded
  | some r => .ok r
  | none => .error (.incomplete mnemonic)

/-- The command of a legal OP with RO = 0 (R61), or the reserved descriptors 0x00 and 0x0F (R64). -/
def decodeOp (op : Nat) (rest : List Byte) : Decoded :=
  match op with
  | 0x0 => .ok (.reservedOp0, rest)
  | 0x1 => orIncomplete "ENCODE_SUBCMD" (readEncodeSubcmd rest)
  | 0x2 => .ok (.encodeRumble, rest)
  | 0x3 => orIncomplete "DECODE" (readDecode rest)
  | 0x4 => orIncomplete "SET_SIDE" (readSetSide rest)
  | 0x5 => orIncomplete "CAL_LOAD_USER" (readCalLoadUser rest)
  | 0x6 => orIncomplete "CAL_LOAD_FACTORY" (readCalLoadFactory rest)
  | 0x7 => orIncomplete "CAL_SET_DEADZONE" (readCalSetDeadzone rest)
  | 0x8 => orIncomplete "CLASSIFY" (readClassify rest)
  | 0x9 => orIncomplete "UNMARSHAL" (readUnmarshal rest)
  | 0xA => orIncomplete "FLASH_REQ" (readFlashReq rest)
  | 0xB => orIncomplete "FLASH_REPLY" (readFlashReply rest)
  | 0xC => .ok (.flashTimeout, rest)
  | 0xD => .ok (.readState, rest)
  | 0xE => .ok (.sessionClear, rest)
  | _ => .ok (.reservedOpF, rest)

/-- The descriptor's fields in the order of R61 and R64: CMD[7:5], then OP, then RO. An illegal descriptor is read as
a reserved command and consumes no operand byte (R63, R64). Which reserved row a byte such as 0x10 belongs to is
DEDUCED from spec/opcode_table.json (log entry 12, safe). -/
def decodeDescriptor (cmd : Byte) (rest : List Byte) : Decoded :=
  if cmd.extractLsb' 5 3 ≠ 0#3 then .ok (.reservedHi cmd, rest)
  else if cmd.getLsbD 4 then
    if cmd.extractLsb' 0 4 = 1#4 then orIncomplete "ENCODE_SUBCMD.RO" (readEncodeSubcmdRo rest)
    else .ok (.reservedRo (cmd.extractLsb' 0 4), rest)
  else decodeOp (cmd.extractLsb' 0 4).toNat rest

/-- The command at the front of a stream (R60 to R64). -/
def decode : List Byte → Decoded
  | [] => .error .noCommand
  | cmd :: rest => decodeDescriptor cmd rest

/-! ### Frames of the wire (30_encoding.md R66, R67, R69, R70) -/

/-- The frame kind byte 0 of an outbound frame names, for a frame of 49 bytes. -/
def readWireOut (frame : List Byte) : Option Instr :=
  if isWireFrame Config.ridOutSubcmd frame then some (.wireOutSubcmd frame)
  else if isWireFrame Config.ridOutRumble frame then some (.wireOutRumble frame)
  else none

/-- The report kind byte 0 of an inbound report names, for a report of 49 bytes: exactly three are recognised (R70). -/
def readWireIn (frame : List Byte) : Option Instr :=
  if isWireFrame Config.ridStdReply frame then some (.wireInStdReply frame)
  else if isWireFrame Config.ridStdFull frame then some (.wireInStdFull frame)
  else if isWireFrame Config.ridNfcIr frame then some (.wireInNfcIr frame)
  else none

/-! ### The encoder -/

/-- A length byte and the bytes it counts. -/
def counted (bytes : List Byte) : List Byte := BitVec.ofNat 8 bytes.length :: bytes

/-- The bytes of an instruction: for a command, its words in the command stream (R62); for a frame kind of the wire,
the frame itself. -/
def encode : Instr → List Byte
  | .encodeSubcmd subcmd pay => 0x01#8 :: subcmd :: counted pay
  | .encodeSubcmdRo subcmd rumble pay =>
    0x11#8 :: subcmd :: BitVec.ofNat 8 pay.length :: (rumble.bytes ++ pay)
  | .encodeRumble => [0x02#8]
  | .decode frame => 0x03#8 :: counted frame
  | .setSide pid => [0x04#8, byteOf16 pid 0, byteOf16 pid 1]
  | .calLoadUser raw => 0x05#8 :: raw.bytes
  | .calLoadFactory raw => 0x06#8 :: raw.bytes
  | .calSetDeadzone params => 0x07#8 :: params.bytes
  | .classify h v => [0x08#8, packByte0 h, packByte1 h v, packByte2 v]
  | .unmarshal raw => 0x09#8 :: raw.bytes
  | .flashReq addr size =>
    [0x0A#8, byteOf32 addr 0, byteOf32 addr 1, byteOf32 addr 2, byteOf32 addr 3, size]
  | .flashReply frame => 0x0B#8 :: counted frame
  | .flashTimeout => [0x0C#8]
  | .readState => [0x0D#8]
  | .sessionClear => [0x0E#8]
  | .reservedOp0 => [0x00#8]
  | .reservedOpF => [0x0F#8]
  | .reservedRo op => [0x10#8 ||| op.setWidth 8]
  | .reservedHi cmd => [cmd]
  | .wireOutSubcmd frame | .wireOutRumble frame | .wireInStdReply frame | .wireInStdFull frame
  | .wireInNfcIr frame => frame

/-- The length of an instruction in bytes, column "total length" of R62; a reserved descriptor is one byte (R63) and
a frame of the wire 49. -/
def encodedLength : Instr → Nat
  | .encodeSubcmd _ pay => 3 + pay.length
  | .encodeSubcmdRo _ _ pay => 11 + pay.length
  | .decode frame | .flashReply frame => 2 + frame.length
  | .setSide _ => 3
  | .calLoadUser _ | .calLoadFactory _ | .unmarshal _ => 10
  | .calSetDeadzone _ | .flashReq _ _ => 6
  | .classify _ _ => 4
  | .encodeRumble | .flashTimeout | .readState | .sessionClear | .reservedOp0 | .reservedOpF | .reservedRo _
  | .reservedHi _ => 1
  | .wireOutSubcmd _ | .wireOutRumble _ | .wireInStdReply _ | .wireInStdFull _ | .wireInNfcIr _ => Config.reportLen

/-! ### The opcode table's words -/

/-- The `n` lowest bytes of `w`, lowest first. -/
def bytesOfNat : Nat → Nat → List Byte
  | 0, _ => []
  | n + 1, w => BitVec.ofNat 8 w :: bytesOfNat n (w / 256)

/-- How many zero bytes complete any command that begins with these bytes (R62): no command is longer than 11 bytes and
the bytes counted by PLEN (byte 2) or LEN (byte 1). -/
def zeroBytesAfter (bytes : List Byte) : Nat := 11 + (bytes.getD 1 0#8).toNat + (bytes.getD 2 0#8).toNat

/-- An opcode-table word as the command stream holds it: byte 0 is bits [7:0], and every bit the command has above
`nbits` is zero. -/
def tableBytes (nbits w : Nat) : List Byte :=
  let bytes := bytesOfNat ((nbits + 7) / 8) w
  bytes ++ List.replicate (zeroBytesAfter bytes) 0#8

/-- The instruction the decoder reads from an opcode-table word. -/
def decodeTableWord (nbits w : Nat) : Option Instr :=
  match decode (tableBytes nbits w) with
  | .ok (i, _) => some i
  | .error _ => none

end Sys2Proof
end

