-- ==== Sys2Proof/Machine/State.lean ====
section
/-! DEFINITION. The state of the machine as plain data: the registers of a block instance (10_state.md R20), its
command port, and the other instances of the system (60_exceptions.md R220). -/

namespace Sys2Proof.Machine

/-- SIDE (10_state.md R22). The code 0b10, which no command writes, is left out of the type, as R22 allows
(DESIGN CHOICE, safe: log entry 9). -/
inductive Side where
  | left
  | right
  | unset
deriving DecidableEq, Repr

/-- CAL_STATE, the calibration lifecycle (10_state.md R23). -/
inductive CalState where
  | empty
  | needFactory
  | loaded
  | locked
deriving DecidableEq, Repr

/-- The status codes 0 to 12 of 30_encoding.md R65; 13 to 15 are never produced. -/
inductive Status where
  | ok
  | payloadTooLarge
  | unsupportedReport
  | truncated
  | nack
  | timeout
  | unknownSide
  | discarded
  | needFactory
  | flashBusy
  | noPendingRead
  | sequenceError
  | illegalCommand
deriving DecidableEq, Repr

/-- The result of a response (30_encoding.md R65 to R82): none beside an error status. -/
inductive Result where
  /-- No result. -/
  | none
  /-- An outbound frame (R66, R67). -/
  | frame (bytes : List Byte)
  /-- The data of a flash read (41_flash.md R122). -/
  | data (bytes : List Byte)
  /-- The DeviceStatus word DS (R76). -/
  | deviceStatus (ds : BitVec 64)
  /-- A direction code (R75). -/
  | direction (code : BitVec 4)
  /-- Six unmarshalled calibration fields (R82). -/
  | calibration (word : BitVec 72)
  /-- The snapshot SNAP (R77). -/
  | snapshot (snap : BitVec 96)
deriving DecidableEq, Repr

/-- A response: a status and a result (00_scope.md R10). -/
structure Response where
  status : Status
  result : Result
deriving DecidableEq, Repr

/-- Whose host issues the next command (20_memory.md R48, R49; log entry 6): the host of the instance being served,
or that of another instance, by its place in the list of the others. -/
inductive Turn where
  | served
  | peer (k : Nat)
deriving DecidableEq, Repr

/-- One block instance: the registers of 10_state.md R20 and its command port. -/
structure Block where
  /-- SEQ, the rolling sequence counter (R21). -/
  seq : BitVec 4
  /-- SIDE, the selected controller half (R22). -/
  side : Side
  /-- CAL_STATE (R23). -/
  calState : CalState
  /-- CX, calibrated centre of the X axis (R24). -/
  cx : Word12
  /-- CY, calibrated centre of the Y axis (R24). -/
  cy : Word12
  /-- MINX, distance below the centre (R24). -/
  minx : Word12
  /-- MINY, distance below the centre (R24). -/
  miny : Word12
  /-- MAXX, distance above the centre (R24). -/
  maxx : Word12
  /-- MAXY, distance above the centre (R24). -/
  maxy : Word12
  /-- DZ, the deadzone radius (R25). -/
  dz : Byte
  /-- FLASH_PEND, the outstanding flash read (R26). -/
  flashPend : Bool
  /-- FLASH_SIZE, the clamped size of the pending read (R27). -/
  flashSize : BitVec 5
  /-- The model's own: the command stream of this instance, next byte first. It holds what the host has presented
  and will present. DESIGN CHOICE, safe: log entry 1. -/
  stream : List Byte
  /-- The model's own: the responses given, in issue order, which is the observation of a run
  (70_reset_and_hazards.md R245). Nothing reads it. DESIGN CHOICE, safe: log entry 2. -/
  responses : List Response
deriving DecidableEq, Repr

/-- The state of the machine: the instance being served, whose registers are the fields of `Block`, and the rest of
the system. -/
structure State extends Block where
  /-- The parameter SEQ_SHARING (10_state.md R31), fixed for a run: no step writes it
  (DESIGN CHOICE, safe: log entry 5). -/
  sharing : SeqSharing
  /-- The other instances of the system (60_exceptions.md R220). Under SHARED their field `seq` is not the counter
  and nothing reads it: the one counter is the served instance's `seq` (DESIGN CHOICE, safe: log entry 6). -/
  peers : List Block
  /-- The order in which the hosts issue from here on, one entry a step; when it is empty the served instance's host
  goes on (20_memory.md R49; DESIGN CHOICE, safe: log entry 6). -/
  turns : List Turn
deriving DecidableEq, Repr

/-- Faults: none. "the block has no fault state and no stuck state of its own" (00_scope.md R10), and every command
has a defined result in every state (60_exceptions.md R223). DEDUCED, safe: log entry 13. -/
inductive Fault where
deriving DecidableEq, Repr

/-- Why a step has no meaning for an instruction. -/
inductive Refusal where
  /-- Raised by an arm of `exec` whose instruction has no meaning yet; no arm raises it now. Safe. -/
  | notModelled (mnemonic : String)
  /-- Raised by the meanings of the five frame kinds of the wire, which are "not a command"
  (spec/opcode_table.json): "What the block never does (refused in a model): send or receive on the transport"
  (70_reset_and_hazards.md R255). No byte stream decodes to them, so no step raises it. DEDUCED, safe: log entry 8. -/
  | transportFrame (mnemonic : String)
deriving DecidableEq, Repr

/-- An instance after power-on reset (10_state.md R32, 70_reset_and_hazards.md R240) with a given SEQ_INIT. Its port
holds no command and has given no response (log entries 1 and 2). -/
def Block.reset (seqInit : BitVec 4) : Block where
  seq := seqInit
  side := .unset
  calState := .empty
  cx := 0#12
  cy := 0#12
  minx := 0#12
  miny := 0#12
  maxx := 0#12
  maxy := 0#12
  dz := 0#8
  flashPend := false
  flashSize := 0#5
  stream := []
  responses := []

/-- The machine after power-on reset: every instance as R32 says, SEQ_INIT, SEQ_SHARING and the number of instances
left open ("All instances start from power-on reset", 60_exceptions.md R220; DESIGN CHOICE, safe: log entries 4 to 6). -/
def State.reset : State where
  toBlock := Block.reset (Config.seqInit 0)
  sharing := Config.seqSharing
  peers := (List.range Config.peerCount).map fun k => Block.reset (Config.seqInit (k + 1))
  turns := []

end Sys2Proof.Machine
end

