-- ==== Sys2Proof/Machine/Flags.lean ====
section
/-! DEFINITION. The codes and words of the block's outcomes. The block has no flags or condition codes that persist
(10_state.md R29): every outcome is the STATUS and the result of a response (30_encoding.md R65, R73 to R77, R82). -/

namespace Sys2Proof.Machine

/-- SIDE as its two bits (10_state.md R22). -/
def Side.code : Side → BitVec 2
  | .left => 0b00#2
  | .right => 0b01#2
  | .unset => 0b11#2

/-- CAL_STATE as its two bits (10_state.md R23). -/
def CalState.code : CalState → BitVec 2
  | .empty => 0b00#2
  | .needFactory => 0b01#2
  | .loaded => 0b10#2
  | .locked => 0b11#2

/-- SEQ_SHARING is SHARED (10_state.md R31). -/
def isShared : SeqSharing → Bool
  | .shared => true
  | .perInstance => false

/-- The 4-bit STATUS code (30_encoding.md R65). -/
def Status.code : Status → BitVec 4
  | .ok => 0#4
  | .payloadTooLarge => 1#4
  | .unsupportedReport => 2#4
  | .truncated => 3#4
  | .nack => 4#4
  | .timeout => 5#4
  | .unknownSide => 6#4
  | .discarded => 7#4
  | .needFactory => 8#4
  | .flashBusy => 9#4
  | .noPendingRead => 10#4
  | .sequenceError => 11#4
  | .illegalCommand => 12#4

/-- The kind of a status, column "kind" of the cause table (60_exceptions.md R211; 30_encoding.md R65). -/
inductive StatusKind where
  | success
  | error
  | dropped
deriving DecidableEq, Repr

/-- The kind of each status (60_exceptions.md R211). -/
def Status.kind : Status → StatusKind
  | .ok | .needFactory => .success
  | .discarded => .dropped
  | .payloadTooLarge | .unsupportedReport | .truncated | .nack | .timeout | .unknownSide | .flashBusy
  | .noPendingRead | .sequenceError | .illegalCommand => .error

/-- "A status other than OK or NEED_FACTORY is an error" (00_scope.md R10): every status whose kind is not success.
That this takes in DISCARDED, which R65 and R211 call a dropped outcome and no error, is DEDUCED from R10's own words,
safe: log entry 16. -/
def Status.isError (st : Status) : Bool := st.kind != .success

/-- The battery level of a report (30_encoding.md R73). -/
inductive Battery where
  | empty
  | critical
  | low
  | medium
  | full
  | invalid
deriving DecidableEq, Repr

/-- The battery code (30_encoding.md R73); 5 and 6 are never produced. -/
def Battery.code : Battery → BitVec 3
  | .empty => 0#3
  | .critical => 1#3
  | .low => 2#3
  | .medium => 3#3
  | .full => 4#3
  | .invalid => 7#3

/-- A StickDirection (30_encoding.md R75). -/
inductive Direction where
  | invalid
  | center
  | up
  | upperRight
  | right
  | lowerRight
  | down
  | lowerLeft
  | left
  | upperLeft
deriving DecidableEq, Repr

/-- The direction code (30_encoding.md R75); 10 to 15 are never produced. -/
def Direction.code : Direction → BitVec 4
  | .invalid => 0#4
  | .center => 1#4
  | .up => 2#4
  | .upperRight => 3#4
  | .right => 4#4
  | .lowerRight => 5#4
  | .down => 6#4
  | .lowerLeft => 7#4
  | .left => 8#4
  | .upperLeft => 9#4

/-- The fields of the DeviceStatus word (30_encoding.md R76). -/
structure DeviceStatus where
  rid : Byte
  bat : BitVec 3
  conn : BitVec 2
  side : BitVec 1
  btn : BitVec 12
  h : Word12
  v : Word12
  dir : BitVec 4
deriving DecidableEq, Repr

/-- DS (30_encoding.md R76): RID at [7:0], BAT [10:8], CONN [12:11], SIDE [13], BTN [25:14], H [37:26], V [49:38],
DIR [53:50], zeros above. -/
def DeviceStatus.word (d : DeviceStatus) : BitVec 64 :=
  fieldAt 64 0 d.rid ||| fieldAt 64 8 d.bat ||| fieldAt 64 11 d.conn ||| fieldAt 64 13 d.side |||
    fieldAt 64 14 d.btn ||| fieldAt 64 26 d.h ||| fieldAt 64 38 d.v ||| fieldAt 64 50 d.dir

/-- SNAP (30_encoding.md R77): SEQ at [3:0], SIDE [5:4], CAL_STATE [7:6], FLASH_PEND [8], FLASH_SIZE [13:9],
DZ [21:14], CX [33:22], CY [45:34], MINX [57:46], MINY [69:58], MAXX [81:70], MAXY [93:82], zeros above. -/
def snapWord (b : Block) : BitVec 96 :=
  fieldAt 96 0 b.seq ||| fieldAt 96 4 b.side.code ||| fieldAt 96 6 b.calState.code |||
    fieldAt 96 8 (BitVec.ofBool b.flashPend) ||| fieldAt 96 9 b.flashSize ||| fieldAt 96 14 b.dz |||
    fieldAt 96 22 b.cx ||| fieldAt 96 34 b.cy ||| fieldAt 96 46 b.minx ||| fieldAt 96 58 b.miny |||
    fieldAt 96 70 b.maxx ||| fieldAt 96 82 b.maxy

/-- The six calibration values of one half (10_state.md R24). -/
structure CalBank where
  cx : Word12
  cy : Word12
  minx : Word12
  miny : Word12
  maxx : Word12
  maxy : Word12
deriving DecidableEq, Repr

/-- The result word of UNMARSHAL (30_encoding.md R82): CX at [11:0], then CY, MINX, MINY, MAXX, MAXY at [71:60]. -/
def CalBank.word (c : CalBank) : BitVec 72 :=
  fieldAt 72 0 c.cx ||| fieldAt 72 12 c.cy ||| fieldAt 72 24 c.minx ||| fieldAt 72 36 c.miny |||
    fieldAt 72 48 c.maxx ||| fieldAt 72 60 c.maxy

end Sys2Proof.Machine
end

