-- ==== Sys2Proof/Machine/Operands.lean ====
section
/-! DEFINITION. How the commands read their operands: frame bytes and the fields of an inbound report
(30_encoding.md R69 to R74, R81), calibration sections (R78), flash addresses (20_memory.md R43), and how they lay
out the frames they build (R66 to R68, R80). -/

namespace Sys2Proof.Machine

/-! ### The selected half -/

/-- A controller half: what SIDE selects when it is set (10_state.md R22). -/
inductive Half where
  | left
  | right
deriving DecidableEq, Repr

/-- The half SIDE selects; none while SIDE is Unset (10_state.md R22). -/
def Side.half : Side → Option Half
  | .left => some .left
  | .right => some .right
  | .unset => none

/-- SIDE[0] of a half: 0 Left, 1 Right (30_encoding.md R76). -/
def Half.bit : Half → BitVec 1
  | .left => 0#1
  | .right => 1#1

/-- The SIDE value a product id selects (30_encoding.md R83). -/
def sideOfPid (pid : BitVec 16) : Option Side :=
  if pid = Config.pidLeft then some .left
  else if pid = Config.pidRight then some .right
  else none

/-! ### Inbound reports -/

/-- `FRAME[n]`. No rule reads past the frame, because every command that reads a frame operand checks its length first
(20_memory.md R40); the value past its end is never used. DEDUCED, safe: log entry 10. -/
def frameByte (frame : List Byte) (n : Nat) : Byte := frame.getD n 0#8

/-- Bit `n` of a byte, as a 1-bit word. -/
def bitOf (b : Byte) (n : Nat) : BitVec 1 := b.extractLsb' n 1

/-- The three recognised report ids (30_encoding.md R70). -/
def isReportId (rid : Byte) : Bool :=
  rid == Config.ridStdReply || rid == Config.ridStdFull || rid == Config.ridNfcIr

/-- Battery level of report byte 2 (42_parser.md R141, 30_encoding.md R73). -/
def battery (b : Byte) : Battery :=
  match (b.extractLsb' 4 4).toNat with
  | 0x0 => .empty
  | 0x2 => .critical
  | 0x4 => .low
  | 0x6 => .medium
  | 0x8 => .full
  | _ => .invalid

/-- Connection kind, bits [2:1] of report byte 2 (42_parser.md R142). -/
def connection (b : Byte) : BitVec 2 := b.extractLsb' 1 2

/-- BTN of the left half (42_parser.md R143). The byte-4 positions are the spec's, PRESUMED, unsafe: log entry 7. -/
def buttonsLeft (frame : List Byte) : BitVec 12 :=
  fieldAt 12 0 (frameByte frame 5) ||| fieldAt 12 8 (bitOf (frameByte frame 4) 0) |||
    fieldAt 12 9 (bitOf (frameByte frame 4) 3) ||| fieldAt 12 10 (bitOf (frameByte frame 4) 5) |||
    fieldAt 12 11 (bitOf (frameByte frame 4) 7)

/-- BTN of the right half (42_parser.md R144). The byte-4 positions are the spec's, PRESUMED, unsafe: log entry 7. -/
def buttonsRight (frame : List Byte) : BitVec 12 :=
  fieldAt 12 0 (frameByte frame 3) ||| fieldAt 12 8 (bitOf (frameByte frame 4) 1) |||
    fieldAt 12 9 (bitOf (frameByte frame 4) 2) ||| fieldAt 12 10 (bitOf (frameByte frame 4) 4) |||
    fieldAt 12 11 (bitOf (frameByte frame 4) 7)

/-- BTN of the selected half (30_encoding.md R74). -/
def buttons (frame : List Byte) : Half → BitVec 12
  | .left => buttonsLeft frame
  | .right => buttonsRight frame

/-- The stick sample (H, V) of the selected half (42_parser.md R145). -/
def stick (frame : List Byte) : Half → Word12 × Word12
  | .left => unpack12 (frameByte frame 6) (frameByte frame 7) (frameByte frame 8)
  | .right => unpack12 (frameByte frame 9) (frameByte frame 10) (frameByte frame 11)

/-- A frame matches the pending flash read (30_encoding.md R81, 41_flash.md R122): only byte 0 and the echo decide. -/
def isFlashReply (frame : List Byte) : Bool :=
  frameByte frame 0 == Config.ridStdReply && frameByte frame Config.echoPos == Config.subcmdFlashRead

/-- The acknowledge flag of a flash reply, byte 13 bit 7 (30_encoding.md R81). -/
def replyAck (frame : List Byte) : Bool := (frameByte frame Config.ackPos).getLsbD 7

/-- The data of a flash reply, `size` bytes from byte 20 on (41_flash.md R122). -/
def replyData (frame : List Byte) (size : Nat) : List Byte := (frame.drop Config.dataPos).take size

/-! ### Calibration sections -/

/-- `unmarshal` (43_calibration.md R161): three packed pairs, whose order depends on the half (30_encoding.md R78). -/
def unmarshal (raw : Raw9) (half : Half) : CalBank :=
  let p0 := unpack12 raw.b0 raw.b1 raw.b2
  let p1 := unpack12 raw.b3 raw.b4 raw.b5
  let p2 := unpack12 raw.b6 raw.b7 raw.b8
  match half with
  | .left => { maxx := p0.1, maxy := p0.2, cx := p1.1, cy := p1.2, minx := p2.1, miny := p2.2 }
  | .right => { cx := p0.1, cy := p0.2, minx := p1.1, miny := p1.2, maxx := p2.1, maxy := p2.2 }

/-- All nine bytes are 0xFF: the user section is not written (43_calibration.md R164). -/
def all255 (raw : Raw9) : Bool := raw.bytes.all (· == 0xFF#8)

/-- The deadzone byte of the stick parameters, offset 3 (30_encoding.md R79). -/
def deadzoneOf (params : Params5) : Byte := params.p3

/-! ### Flash addresses (20_memory.md R43) -/

/-- A region of the device's flash: its address and its size in bytes. -/
structure FlashRegion where
  addr : BitVec 32
  size : Byte
deriving DecidableEq, Repr

/-- Body and button colour. -/
def colourRegion : FlashRegion := ⟨0x6050#32, 6#8⟩

/-- Stick user calibration. -/
def userCalRegion : Half → FlashRegion
  | .left => ⟨0x8012#32, 9#8⟩
  | .right => ⟨0x801D#32, 9#8⟩

/-- Stick factory calibration. -/
def factoryCalRegion : Half → FlashRegion
  | .left => ⟨0x603D#32, 9#8⟩
  | .right => ⟨0x6046#32, 9#8⟩

/-- Stick device parameters, which hold the deadzone. -/
def stickParamsRegion : Half → FlashRegion
  | .left => ⟨0x6086#32, 5#8⟩
  | .right => ⟨0x6098#32, 5#8⟩

/-- `cal_lookup` (43_calibration.md R167): the flash read that the next calibration step of a half needs. -/
def calLookup (half : Half) : CalState → Option FlashRegion
  | .empty => some (userCalRegion half)
  | .needFactory => some (factoryCalRegion half)
  | .loaded => some (stickParamsRegion half)
  | .locked => none

/-! ### Outbound frames -/

/-- RUMBLE_NEUTRAL (30_encoding.md R68). -/
def rumbleNeutral : Rumble8 := ⟨0x00#8, 0x01#8, 0x40#8, 0x40#8, 0x00#8, 0x01#8, 0x40#8, 0x40#8⟩

/-- A subcommand frame (30_encoding.md R66): report id, sequence number, rumble, subcommand id, payload, and 0x00 to
the end of the 38 payload bytes. -/
def subcmdFrame (seq : BitVec 4) (rumble : Rumble8) (subcmd : Byte) (pay : List Byte) : List Byte :=
  [Config.ridOutSubcmd, seq.setWidth 8] ++ rumble.bytes ++ [subcmd] ++ pay ++
    List.replicate (Config.maxPayload - pay.length) 0x00#8

/-- A rumble-only frame (30_encoding.md R67): report id, sequence number, then 0x00. -/
def rumbleFrame (seq : BitVec 4) : List Byte :=
  [Config.ridOutRumble, seq.setWidth 8] ++ List.replicate (Config.reportLen - 2) 0x00#8

/-- The clamped size of a flash read, `min(SIZE, 29)` (41_flash.md R121). -/
def clampedSize (size : Byte) : Nat := min size.toNat Config.maxFlashRead

/-- The payload of a flash-read request (30_encoding.md R80): the address, low byte first, and the clamped size. -/
def flashPayload (addr : BitVec 32) (size : Byte) : List Byte :=
  [byteOf32 addr 0, byteOf32 addr 1, byteOf32 addr 2, byteOf32 addr 3, BitVec.ofNat 8 (clampedSize size)]

end Sys2Proof.Machine
end

