-- ==== Sys2Proof/Machine/Classifier.lean ====
section
/-! DEFINITION. The direction classifier in exact integers (43_calibration.md R171 to R178). -/

namespace Sys2Proof.Machine

/-- The effective range of an axis (R172): centre minus the offset below, centre plus the offset above. -/
structure Axis where
  lo : Int
  hi : Int
deriving DecidableEq, Repr

/-- The effective range from the registers of one axis (R172). -/
def axisOf (c min max : Word12) : Axis := ⟨c.int - min.int, c.int + max.int⟩

/-- The axis centre (R173): the midpoint rounded toward minus infinity (`/` on integers with a positive divisor is the
floor). -/
def Axis.mid (a : Axis) : Int := (a.lo + a.hi) / 2

/-- The divisor of an axis (R175). -/
def Axis.divisor (a : Axis) : Int := a.mid - 1

/-- `clamp(v, lo, hi) = min(max(v, lo), hi)` (00_scope.md R7). -/
def clampInt (v lo hi : Int) : Int := min (max v lo) hi

/-- The sector of clamped offsets (R177, R178). -/
def sector (cx cy divX divY : Int) : Direction :=
  let a := cx * cx * (divY * divY)
  let b := cy * cy * (divX * divX)
  if a > 3 * b then (if cx > 0 then .right else .left)
  else if b > 3 * a then (if cy > 0 then .up else .down)
  else if cx > 0 then (if cy > 0 then .upperRight else .lowerRight)
  else (if cy > 0 then .upperLeft else .lowerLeft)

/-- `classify` over two axes and a deadzone radius (R171): the range test, the deadzone test, the divisor test, and
the sector of the clamped offsets. -/
def classifyAxes (x y : Axis) (dz : Int) (h v : Int) : Direction :=
  if x.hi ≤ x.lo ∨ y.hi ≤ y.lo then .invalid
  else
    let dx := h - x.mid
    let dy := v - y.mid
    if dx * dx + dy * dy ≤ dz * dz then .center
    else if x.divisor ≤ 0 ∨ y.divisor ≤ 0 then .invalid
    else
      sector (clampInt dx (-x.divisor) x.divisor) (clampInt dy (-y.divisor) y.divisor) x.divisor y.divisor

/-- `classify(h, v)` of an instance (R171): its bank and its deadzone. -/
def classify (b : Block) (h v : Word12) : Direction :=
  classifyAxes (axisOf b.cx b.minx b.maxx) (axisOf b.cy b.miny b.maxy) (b.dz.toNat : Int) h.int v.int

/-- The direction of a sample: Invalid unless the calibration is LOCKED (42_parser.md R146, 43_calibration.md R170). -/
def directionOf (b : Block) (h v : Word12) : Direction :=
  if b.calState = .locked then classify b h v else .invalid

end Sys2Proof.Machine
end

