-- ==== Sys2Proof/Machine/Ops.lean ====
section
/-! DEFINITION. The operations the meanings share: responding, taking an exception, using the sequence counter,
writing the calibration bank, clearing the session, and serving another instance. -/

namespace Sys2Proof.Machine

/-- The outcome of a step on this machine. -/
abbrev Answer := Host.Outcome State Fault Refusal

/-- `respond(STATUS, result)` (00_scope.md R8): the command ends with one response (R10). -/
def State.respond (s : State) (status : Status) (result : Result) : Answer :=
  .next { s with responses := s.responses ++ [⟨status, result⟩] }

/-- `raise E` (00_scope.md R8), the taking of an exception (60_exceptions.md R210, R216): the response carries the
status and no result, no register is written, nothing is saved and control goes nowhere. There is no return from it
(R217). -/
def State.raise (s : State) (status : Status) : Answer := s.respond status .none

/-- `emit_frame` (00_scope.md R8): status OK with an outbound frame. -/
def State.emitFrame (s : State) (frame : List Byte) : Answer := s.respond .ok (.frame frame)

/-- The state `seq_take()` leaves (40_framer.md R100): SEQ is one more, modulo 16. Its value is the SEQ before. -/
def State.seqAdvance (s : State) : State := { s with seq := s.seq + 1#4 }

/-- The six calibration registers written together (10_state.md R24), and CAL_STATE = LOADED
(43_calibration.md R163, R165). -/
def State.loadBank (s : State) (c : CalBank) : State :=
  { s with cx := c.cx, cy := c.cy, minx := c.minx, miny := c.miny, maxx := c.maxx, maxy := c.maxy,
           calState := .loaded }

/-- Every register but SEQ at its reset value (44_control.md R201). -/
def State.clearSession (s : State) : State :=
  { s with side := .unset, calState := .empty, cx := 0#12, cy := 0#12, minx := 0#12, miny := 0#12,
           maxx := 0#12, maxy := 0#12, dz := 0#8, flashPend := false, flashSize := 0#5 }

/-- The incoming instance's counter (10_state.md R31): the one shared register under SHARED, its own under
PER_INSTANCE. -/
def State.incomingSeq (s : State) (b : Block) : BitVec 4 := if isShared s.sharing then s.seq else b.seq

/-- Serve the instance a turn names: it and the instance served until now change places. A number no instance has
changes nothing (log entry 6). -/
def State.serve (s : State) : Turn → State
  | .served => s
  | .peer k =>
    match s.peers[k]? with
    | none => s
    | some b =>
      { s with toBlock := { b with seq := s.incomingSeq b }, peers := s.peers.set k s.toBlock }

/-- Take the next turn: the instance whose host issues next is served (20_memory.md R48, R49). -/
def State.takeTurn (s : State) : State :=
  match s.turns with
  | [] => s
  | t :: ts => { s.serve t with turns := ts }

end Sys2Proof.Machine
end

