-- ==== Sys2Proof/Machine/Calibration.lean ====
section
/-! DEFINITION. The calibration commands (43_calibration.md). -/

namespace Sys2Proof.Machine

/-- The lifecycle states in which a calibration section may be loaded (R163, R165). -/
def CalState.acceptsLoad : CalState → Bool
  | .empty | .needFactory => true
  | .loaded | .locked => false

/-- SET_SIDE (R160): SEQUENCE_ERROR once a calibration has been offered, UNKNOWN_SIDE for any other product id. -/
def execSetSide (pid : BitVec 16) (s : State) : Answer :=
  if s.calState ≠ .empty then s.raise .sequenceError
  else
    match sideOfPid pid with
    | none => s.raise .unknownSide
    | some side => { s with side := side }.respond .ok .none

/-- CAL_LOAD_USER (R163): UNKNOWN_SIDE, SEQUENCE_ERROR, NEED_FACTORY for a section of all 0xFF, else the bank. -/
def execCalLoadUser (raw : Raw9) (s : State) : Answer :=
  match s.side.half with
  | none => s.raise .unknownSide
  | some half =>
    if ¬ s.calState.acceptsLoad then s.raise .sequenceError
    else if all255 raw then { s with calState := .needFactory }.respond .needFactory .none
    else (s.loadBank (unmarshal raw half)).respond .ok .none

/-- CAL_LOAD_FACTORY (R165): UNKNOWN_SIDE, SEQUENCE_ERROR, else the bank, whatever the bytes. -/
def execCalLoadFactory (raw : Raw9) (s : State) : Answer :=
  match s.side.half with
  | none => s.raise .unknownSide
  | some half =>
    if ¬ s.calState.acceptsLoad then s.raise .sequenceError
    else (s.loadBank (unmarshal raw half)).respond .ok .none

/-- CAL_SET_DEADZONE (R166): SEQUENCE_ERROR unless LOADED; else DZ is written and the calibration is LOCKED. -/
def execCalSetDeadzone (params : Params5) (s : State) : Answer :=
  if s.calState ≠ .loaded then s.raise .sequenceError
  else { s with dz := deadzoneOf params, calState := .locked }.respond .ok .none

/-- CLASSIFY (R170): status OK always; Invalid is a direction. -/
def execClassify (h v : Word12) (s : State) : Answer :=
  s.respond .ok (.direction (directionOf s.toBlock h v).code)

/-- UNMARSHAL (R162): UNKNOWN_SIDE, else the six fields, in every CAL_STATE. -/
def execUnmarshal (raw : Raw9) (s : State) : Answer :=
  match s.side.half with
  | none => s.raise .unknownSide
  | some half => s.respond .ok (.calibration (unmarshal raw half).word)

end Sys2Proof.Machine
end

