-- ==== Sys2Proof/Machine/Control.lean ====
section
/-! DEFINITION. The control commands and the reserved descriptors (44_control.md). -/

namespace Sys2Proof.Machine

/-- READ_STATE (R200): the snapshot of every register; nothing is written. -/
def execReadState (s : State) : Answer := s.respond .ok (.snapshot (snapWord s.toBlock))

/-- SESSION_CLEAR (R201): every register but SEQ at its reset value. -/
def execSessionClear (s : State) : Answer := s.clearSession.respond .ok .none

/-- A reserved descriptor (R202): ILLEGAL_COMMAND, no state written, SEQ not advanced. -/
def State.illegal (s : State) : Answer := s.raise .illegalCommand

/-- Descriptor 0x00 (R202). -/
def execReservedOp0 (s : State) : Answer := s.illegal

/-- Descriptor 0x0F (R202). -/
def execReservedOpF (s : State) : Answer := s.illegal

/-- RO = 1 with OP other than 0x1 (R202), even where OP alone would be a frame-producing command. -/
def execReservedRo (_op : BitVec 4) (s : State) : Answer := s.illegal

/-- CMD[7:5] other than 0 (R202). -/
def execReservedHi (_cmd : Byte) (s : State) : Answer := s.illegal

end Sys2Proof.Machine
end

