-- ==== Sys2Proof/Machine/Flash.lean ====
section
/-! DEFINITION. The flash-read commands (41_flash.md). -/

namespace Sys2Proof.Machine

/-- FLASH_REQ (R121): FLASH_BUSY while a read is pending; else the request frame, and the read is pending. -/
def execFlashReq (addr : BitVec 32) (size : Byte) (s : State) : Answer :=
  if s.flashPend then s.raise .flashBusy
  else
    { s.seqAdvance with flashPend := true, flashSize := BitVec.ofNat 5 (clampedSize size) }.emitFrame
      (subcmdFrame s.seq rumbleNeutral Config.subcmdFlashRead (flashPayload addr size))

/-- FLASH_REPLY (R122): a frame that is short or does not match is DISCARDED and the read stays pending; a match ends
the read with NACK or with FLASH_SIZE data bytes. -/
def execFlashReply (frame : List Byte) (s : State) : Answer :=
  if ¬ s.flashPend then s.raise .noPendingRead
  else if frame.length < Config.reportLen then s.raise .discarded
  else if ¬ isFlashReply frame then s.raise .discarded
  else if ¬ replyAck frame then { s with flashPend := false }.raise .nack
  else { s with flashPend := false }.respond .ok (.data (replyData frame s.flashSize.toNat))

/-- FLASH_TIMEOUT (R125): the host's deadline ends the pending read. -/
def execFlashTimeout (s : State) : Answer :=
  if ¬ s.flashPend then s.raise .noPendingRead
  else { s with flashPend := false }.raise .timeout

end Sys2Proof.Machine
end

