-- ==== Sys2Proof/Machine/Framer.lean ====
section
/-! DEFINITION. The framer commands (40_framer.md). -/

namespace Sys2Proof.Machine

/-- Build a subcommand frame with the given rumble bytes (R101): PAYLOAD_TOO_LARGE over 38 bytes, with SEQ unchanged. -/
def State.buildSubcmd (s : State) (rumble : Rumble8) (subcmd : Byte) (pay : List Byte) : Answer :=
  if pay.length > Config.maxPayload then s.raise .payloadTooLarge
  else s.seqAdvance.emitFrame (subcmdFrame s.seq rumble subcmd pay)

/-- ENCODE_SUBCMD (R101), RO = 0: the neutral rumble. -/
def execEncodeSubcmd (subcmd : Byte) (pay : List Byte) (s : State) : Answer :=
  s.buildSubcmd rumbleNeutral subcmd pay

/-- ENCODE_SUBCMD.RO (R101), RO = 1: the override bytes, unchecked. -/
def execEncodeSubcmdRo (subcmd : Byte) (rumble : Rumble8) (pay : List Byte) (s : State) : Answer :=
  s.buildSubcmd rumble subcmd pay

/-- ENCODE_RUMBLE (R102). -/
def execEncodeRumble (s : State) : Answer :=
  s.seqAdvance.emitFrame (rumbleFrame s.seq)

end Sys2Proof.Machine
end

