-- ==== Sys2Proof/Machine/Parser.lean ====
section
/-! DEFINITION. The input-report parser (42_parser.md). -/

namespace Sys2Proof.Machine

/-- The fields of a report, read positionally for the selected half (R140, 30_encoding.md R69, R76). -/
def deviceStatus (b : Block) (half : Half) (frame : List Byte) : DeviceStatus where
  rid := frameByte frame 0
  bat := (battery (frameByte frame 2)).code
  conn := connection (frameByte frame 2)
  side := half.bit
  btn := buttons frame half
  h := (stick frame half).1
  v := (stick frame half).2
  dir := (directionOf b (stick frame half).1 (stick frame half).2).code

/-- DECODE (R140): UNKNOWN_SIDE, then TRUNCATED, then UNSUPPORTED_REPORT, else the DeviceStatus word. -/
def execDecode (frame : List Byte) (s : State) : Answer :=
  match s.side.half with
  | none => s.raise .unknownSide
  | some half =>
    if frame.length < Config.reportLen then s.raise .truncated
    else if ¬ isReportId (frameByte frame 0) then s.raise .unsupportedReport
    else s.respond .ok (.deviceStatus (deviceStatus s.toBlock half frame).word)

end Sys2Proof.Machine
end

