-- ==== Sys2Proof/Machine/Wire.lean ====
section
/-! DEFINITION. The five frame kinds of the wire. Each is "not a command" (spec/opcode_table.json): the block builds
such frames and is handed such reports as operands, but "What the block never does (refused in a model): send or
receive on the transport" (70_reset_and_hazards.md R255). DEDUCED, safe: log entry 8. -/

namespace Sys2Proof.Machine

/-- A frame on the transport: refused by name (70_reset_and_hazards.md R255). -/
def refuseTransport (mnemonic : String) : Answer := .refused (.transportFrame mnemonic)

/-- Not a command: the frame kind built by ENCODE_SUBCMD and FLASH_REQ (30_encoding.md R66). -/
def execWireOutSubcmd (_frame : List Byte) (_s : State) : Answer := refuseTransport "WIRE_OUT_SUBCMD"

/-- Not a command: the frame kind built by ENCODE_RUMBLE (30_encoding.md R67). -/
def execWireOutRumble (_frame : List Byte) (_s : State) : Answer := refuseTransport "WIRE_OUT_RUMBLE"

/-- Not a command: a report recognised by DECODE and FLASH_REPLY (42_parser.md R140, 41_flash.md R122). -/
def execWireInStdReply (_frame : List Byte) (_s : State) : Answer := refuseTransport "WIRE_IN_STD_REPLY"

/-- Not a command: a report recognised by DECODE (42_parser.md R140). -/
def execWireInStdFull (_frame : List Byte) (_s : State) : Answer := refuseTransport "WIRE_IN_STD_FULL"

/-- Not a command: a report recognised by DECODE (42_parser.md R140). -/
def execWireInNfcIr (_frame : List Byte) (_s : State) : Answer := refuseTransport "WIRE_IN_NFC_IR"

end Sys2Proof.Machine
end

