-- ==== Sys2Proof/Machine/Dispatch.lean ====
section
/-! DEFINITION. The dispatch: one arm per row of spec/opcode_table.json. -/

namespace Sys2Proof.Machine

-- The meaning of an instruction for the instance being served.
def exec (i : Instr) (s : State) : Host.Outcome State Fault Refusal :=
  match i with
  -- framer (40_framer.md)
  | .encodeSubcmd subcmd pay => Sys2Proof.Machine.execEncodeSubcmd subcmd pay s
  | .encodeSubcmdRo subcmd rumble pay => Sys2Proof.Machine.execEncodeSubcmdRo subcmd rumble pay s
  | .encodeRumble => Sys2Proof.Machine.execEncodeRumble s
  -- parser (42_parser.md)
  | .decode frame => Sys2Proof.Machine.execDecode frame s
  -- calibration (43_calibration.md)
  | .setSide pid => Sys2Proof.Machine.execSetSide pid s
  | .calLoadUser raw => Sys2Proof.Machine.execCalLoadUser raw s
  | .calLoadFactory raw => Sys2Proof.Machine.execCalLoadFactory raw s
  | .calSetDeadzone params => Sys2Proof.Machine.execCalSetDeadzone params s
  | .classify h v => Sys2Proof.Machine.execClassify h v s
  | .unmarshal raw => Sys2Proof.Machine.execUnmarshal raw s
  -- flash (41_flash.md)
  | .flashReq addr size => Sys2Proof.Machine.execFlashReq addr size s
  | .flashReply frame => Sys2Proof.Machine.execFlashReply frame s
  | .flashTimeout => Sys2Proof.Machine.execFlashTimeout s
  -- control (44_control.md)
  | .readState => Sys2Proof.Machine.execReadState s
  | .sessionClear => Sys2Proof.Machine.execSessionClear s
  | .reservedOp0 => Sys2Proof.Machine.execReservedOp0 s
  | .reservedOpF => Sys2Proof.Machine.execReservedOpF s
  | .reservedRo op => Sys2Proof.Machine.execReservedRo op s
  | .reservedHi cmd => Sys2Proof.Machine.execReservedHi cmd s
  -- frame kinds of the wire: not commands (log entry 8)
  | .wireOutSubcmd frame => Sys2Proof.Machine.execWireOutSubcmd frame s
  | .wireOutRumble frame => Sys2Proof.Machine.execWireOutRumble frame s
  | .wireInStdReply frame => Sys2Proof.Machine.execWireInStdReply frame s
  | .wireInStdFull frame => Sys2Proof.Machine.execWireInStdFull frame s
  | .wireInNfcIr frame => Sys2Proof.Machine.execWireInNfcIr frame s

end Sys2Proof.Machine
end

