-- ==== Sys2Proof/Machine/Fetch.lean ====
section
/-! DEFINITION. How the served instance takes a command from its port (00_scope.md R9, 60_exceptions.md R225), and how
a command is placed there. -/

namespace Sys2Proof.Machine

/-- The command at the front of the served instance's port and the state with its bytes consumed; none while the port
holds no complete command (60_exceptions.md R225). -/
def State.fetch (s : State) : Option (Instr × State) :=
  match Sys2Proof.decode s.stream with
  | .ok (i, rest) => some (i, { s with stream := rest })
  | .error _ => none

/-- The state with a command's bytes at the served instance's port and its host next to issue. -/
def State.present (s : State) (bytes : List Byte) : State := { s with stream := bytes, turns := [] }

end Sys2Proof.Machine
end

