-- ==== Sys2Proof/Machine/Step.lean ====
section
/-! DEFINITION. One step of the machine. -/

namespace Sys2Proof.Machine

/-- One step (00_scope.md R9, 20_memory.md R48, R49): the instance whose turn it is executes the next command of its
port. With no complete command there, nothing is executed and the registers stay as the previous command left them
(60_exceptions.md R225); the block waits for its host (DESIGN CHOICE, safe: log entry 3). -/
def step (s : State) : Host.Outcome State Fault Refusal :=
  match s.takeTurn.fetch with
  | some (i, t) => exec i t
  | none => .next s.takeTurn

/-- The instruction of an opcode-table word placed where `step` fetches next: at the front of the served instance's
port, its host the next to issue (log entry 3). -/
def State.withFetchWord (s : State) (nbits w : Nat) : State := s.present (tableBytes nbits w)

end Sys2Proof.Machine
end

