-- ==== Sys2Proof/Machine/Assembler.lean ====
section
/-! DEFINITION. The assembler syntax of a command stream and its pseudo-commands (30_encoding.md R90, R91): from the
characters of one line to the command it stands for, whose bytes `encode` gives. What R90 leaves open of the line's
form is a DESIGN CHOICE, safe: log entry 14. -/

namespace Sys2Proof.Machine

/-! ### Lexing -/

/-- The pieces of a line: a mnemonic or a number, or one of the marks `,` `[` `]` `+` `*`. -/
inductive Token where
  | word (text : List Char)
  | comma
  | openBracket
  | closeBracket
  | plus
  | star
deriving DecidableEq, Repr

/-- A character of a mnemonic or of a number. -/
def isWordChar (c : Char) : Bool := c.isAlphanum || c == '_' || c == '.'

/-- The word collected so far, its last character first, put in front of the tokens after it. -/
def flushWord (acc : List Char) (ts : List Token) : List Token :=
  match acc with
  | [] => ts
  | _ :: _ => .word acc.reverse :: ts

/-- The token of a mark. -/
def markToken (c : Char) : Option Token :=
  if c == ',' then some .comma
  else if c == '[' then some .openBracket
  else if c == ']' then some .closeBracket
  else if c == '+' then some .plus
  else if c == '*' then some .star
  else none

/-- The tokens of a line; spaces separate words, and any other character is rejected. -/
def lexFrom : List Char → List Char → Option (List Token)
  | [], acc => some (flushWord acc [])
  | c :: cs, acc =>
    if isWordChar c then lexFrom cs (c :: acc)
    else if c == ' ' then (lexFrom cs []).map (flushWord acc)
    else
      match markToken c with
      | some t => (lexFrom cs []).map fun ts => flushWord acc (t :: ts)
      | none => none

/-! ### Numbers and byte lists -/

/-- The value of a hexadecimal digit. -/
def hexDigit (c : Char) : Option Nat :=
  if c.isDigit then some (c.toNat - 48)
  else if 'a'.toNat ≤ c.toNat ∧ c.toNat ≤ 'f'.toNat then some (c.toNat - 87)
  else if 'A'.toNat ≤ c.toNat ∧ c.toNat ≤ 'F'.toNat then some (c.toNat - 55)
  else none

/-- Digits in a base, most significant first, after the value `n`. -/
def digitsFrom (base : Nat) : List Char → Nat → Option Nat
  | [], n => some n
  | c :: cs, n =>
    match hexDigit c with
    | some d => if d < base then digitsFrom base cs (n * base + d) else none
    | none => none

/-- A number, decimal or 0x-hexadecimal (R90). -/
def number : List Char → Option Nat
  | '0' :: 'x' :: d :: ds => digitsFrom 16 (d :: ds) 0
  | d :: ds => digitsFrom 10 (d :: ds) 0
  | [] => none

/-- A number that fits in `w` bits. -/
def bitsOf (w n : Nat) : Option (BitVec w) := if n < 2 ^ w then some (BitVec.ofNat w n) else none

/-- A number that is a byte. -/
def byteNumber (text : List Char) : Option Byte := (number text).bind (bitsOf 8)

/-- The rest of a byte list after a byte: the closing bracket, or a comma and another byte. -/
def listTail : List Token → Option (List Byte × List Token)
  | .closeBracket :: ts => some ([], ts)
  | .comma :: .word w :: ts =>
    match byteNumber w, listTail ts with
    | some b, some (bs, rest) => some (b :: bs, rest)
    | _, _ => none
  | _ => none

/-- A byte list after its opening bracket; `[]` is the empty list (R90). -/
def listBody : List Token → Option (List Byte × List Token)
  | .closeBracket :: ts => some ([], ts)
  | .word w :: ts =>
    match byteNumber w, listTail ts with
    | some b, some (bs, rest) => some (b :: bs, rest)
    | _, _ => none
  | _ => none

/-- `++ 0*m` after a byte list: m bytes of 0x00 (R90); without it, nothing is added. -/
def listFill (bytes : List Byte) : List Token → Option (List Byte × List Token)
  | .plus :: .plus :: .word ['0'] :: .star :: .word m :: ts =>
    (number m).map fun n => (bytes ++ List.replicate n 0#8, ts)
  | .plus :: _ => none
  | ts => some (bytes, ts)

/-! ### Operands -/

/-- An operand of a line: a number or a byte list. -/
inductive Operand where
  | num (n : Nat)
  | list (bytes : List Byte)
deriving DecidableEq, Repr

/-- The operand at the front. -/
def operand : List Token → Option (Operand × List Token)
  | .word w :: ts => (number w).map fun n => (.num n, ts)
  | .openBracket :: ts =>
    ((listBody ts).bind fun (bytes, rest) => listFill bytes rest).map fun (bytes, rest) => (.list bytes, rest)
  | _ => none

/-- Operands separated by commas, to the end of the line; no line has more than `fuel` of them. -/
def operandsWithin : Nat → List Token → Option (List Operand)
  | 0, _ => none
  | fuel + 1, ts =>
    match operand ts with
    | some (o, []) => some [o]
    | some (o, .comma :: rest) => (operandsWithin fuel rest).map (o :: ·)
    | _ => none

/-- The operands of a line, none if nothing follows the mnemonic; no form of R90 has more than three. -/
def lineOperands : List Token → Option (List Operand)
  | [] => some []
  | ts => operandsWithin 3 ts

/-- Nine bytes as RAW. -/
def rawOfList : List Byte → Option Raw9
  | [b0, b1, b2, b3, b4, b5, b6, b7, b8] => some ⟨b0, b1, b2, b3, b4, b5, b6, b7, b8⟩
  | _ => none

/-- Five bytes as PARAMS. -/
def paramsOfList : List Byte → Option Params5
  | [p0, p1, p2, p3, p4] => some ⟨p0, p1, p2, p3, p4⟩
  | _ => none

/-- Eight bytes as RUMBLE. -/
def rumbleOfList : List Byte → Option Rumble8
  | [r0, r1, r2, r3, r4, r5, r6, r7] => some ⟨r0, r1, r2, r3, r4, r5, r6, r7⟩
  | _ => none

/-- A byte sequence whose length fits its length operand (30_encoding.md R62). -/
def countedList (bytes : List Byte) : Option (List Byte) := if lengthFits bytes then some bytes else none

/-! ### Pseudo-commands (R91) -/

/-- FLASH_REQ of a fixed region. -/
def flashReqOf (r : FlashRegion) : Instr := .flashReq r.addr r.size

/-- The expansion of a pseudo-command. The subcommand ids are the spec's, PRESUMED: log entry 7. -/
def expandPseudo (mnemonic : String) : Option Instr :=
  match mnemonic with
  | "READ_COLOR" => some (flashReqOf colourRegion)
  | "READ_USER_CAL.L" => some (flashReqOf (userCalRegion .left))
  | "READ_USER_CAL.R" => some (flashReqOf (userCalRegion .right))
  | "READ_FACTORY_CAL.L" => some (flashReqOf (factoryCalRegion .left))
  | "READ_FACTORY_CAL.R" => some (flashReqOf (factoryCalRegion .right))
  | "READ_STICK_PARAMS.L" => some (flashReqOf (stickParamsRegion .left))
  | "READ_STICK_PARAMS.R" => some (flashReqOf (stickParamsRegion .right))
  | "SET_SIDE.L" => some (.setSide Config.pidLeft)
  | "SET_SIDE.R" => some (.setSide Config.pidRight)
  | "ENABLE_IMU" => some (.encodeSubcmd 0x40#8 [0x01#8])
  | "ENABLE_VIBRATION" => some (.encodeSubcmd 0x48#8 [0x01#8])
  | "SET_REPORT_MODE" => some (.encodeSubcmd 0x03#8 [0x30#8])
  | "POWER_OFF" => some (.encodeSubcmd 0x06#8 [0x00#8])
  | _ => none

/-! ### Lines -/

/-- The command of a mnemonic without operands (R90), or a pseudo-command (R91). -/
def plainLine (mnemonic : String) : Option Instr :=
  match mnemonic with
  | "ENCODE_RUMBLE" => some .encodeRumble
  | "FLASH_TIMEOUT" => some .flashTimeout
  | "READ_STATE" => some .readState
  | "SESSION_CLEAR" => some .sessionClear
  | m => expandPseudo m

/-- The command of a mnemonic with one byte list (R90). -/
def listLine (mnemonic : String) (bytes : List Byte) : Option Instr :=
  match mnemonic with
  | "DECODE" => (countedList bytes).map .decode
  | "CAL_LOAD_USER" => (rawOfList bytes).map .calLoadUser
  | "CAL_LOAD_FACTORY" => (rawOfList bytes).map .calLoadFactory
  | "CAL_SET_DEADZONE" => (paramsOfList bytes).map .calSetDeadzone
  | "UNMARSHAL" => (rawOfList bytes).map .unmarshal
  | "FLASH_REPLY" => (countedList bytes).map .flashReply
  | _ => none

/-- The command of a mnemonic with one number (R90). -/
def numberLine (mnemonic : String) (n : Nat) : Option Instr :=
  match mnemonic with
  | "SET_SIDE" => (bitsOf 16 n).map .setSide
  | _ => none

/-- The command of a mnemonic with two numbers (R90). -/
def pairLine (mnemonic : String) (m n : Nat) : Option Instr :=
  match mnemonic with
  | "CLASSIFY" => (bitsOf 12 m).bind fun h => (bitsOf 12 n).map (.classify h)
  | "FLASH_REQ" => (bitsOf 32 m).bind fun addr => (bitsOf 8 n).map (.flashReq addr)
  | _ => none

/-- The command a mnemonic and its operands stand for (R90). -/
def lineCommand (mnemonic : String) : List Operand → Option Instr
  | [] => plainLine mnemonic
  | [.list bytes] => listLine mnemonic bytes
  | [.num n] => numberLine mnemonic n
  | [.num m, .num n] => pairLine mnemonic m n
  | [.num subcmd, .list pay] =>
    if mnemonic == "ENCODE_SUBCMD" then
      (bitsOf 8 subcmd).bind fun sc => (countedList pay).map (.encodeSubcmd sc)
    else none
  | [.num subcmd, .list rumble, .list pay] =>
    if mnemonic == "ENCODE_SUBCMD.RO" then
      (bitsOf 8 subcmd).bind fun sc => (rumbleOfList rumble).bind fun r =>
        (countedList pay).map (.encodeSubcmdRo sc r)
    else none
  | _ => none

/-- The command of one line of assembler text (R90); none for a line R90 does not give. -/
def parseLine (text : List Char) : Option Instr :=
  match lexFrom text [] with
  | some (.word mnemonic :: ts) => (lineOperands ts).bind (lineCommand (String.ofList mnemonic))
  | _ => none

/-- The byte stream of one line (R90: "The assembler encodes each line to the byte stream of rule R62"). -/
def assembleLine (text : List Char) : Option (List Byte) := (parseLine text).map encode

end Sys2Proof.Machine
end

