-- ==== Sys2Proof/Safety.lean ====
section
/-! DEFINITION. The terms claims are stated in: the invariant of the registers, the count of frames, which statuses a
command may return, and the angle semantics of the classifier. -/

namespace Sys2Proof.Machine

/-! ### The invariant -/

/-- What the commands keep true of an instance's registers (10_state.md R20, R22, R24, R25, R27): the pending size is
at most 29; a calibration has been offered only with a side set; the bank is all zero until a section is loaded; the
deadzone is zero until it is attached. -/
abbrev Block.WellKept (b : Block) : Prop :=
  b.flashSize.toNat ≤ 29 ∧
  (b.calState ≠ .empty → b.side ≠ .unset) ∧
  (b.calState = .empty ∨ b.calState = .needFactory →
    b.cx = 0#12 ∧ b.cy = 0#12 ∧ b.minx = 0#12 ∧ b.miny = 0#12 ∧ b.maxx = 0#12 ∧ b.maxy = 0#12) ∧
  (b.calState ≠ .locked → b.dz = 0#8)

/-- The invariant of the machine: every instance is well kept. -/
abbrev State.Inv (s : State) : Prop := s.toBlock.WellKept ∧ ∀ b ∈ s.peers, b.WellKept

/-! ### Frames built -/

/-- A response that carries an outbound frame. -/
def Response.isFrame (r : Response) : Bool :=
  match r.status, r.result with
  | .ok, .frame _ => true
  | _, _ => false

/-- How many frames an instance has built: its responses that carry one. -/
def Block.framesBuilt (b : Block) : Nat := b.responses.countP Response.isFrame

/-- How many frames the instances of the system have built together. -/
def State.totalFrames (s : State) : Nat := s.framesBuilt + (s.peers.map Block.framesBuilt).sum

/-! ### Statuses -/

/-- The statuses a command may return (60_exceptions.md R211, R213). -/
def mayReturn : Instr → List Status
  | .encodeSubcmd _ _ | .encodeSubcmdRo _ _ _ => [.ok, .payloadTooLarge]
  | .encodeRumble | .classify _ _ | .readState | .sessionClear => [.ok]
  | .decode _ => [.ok, .unknownSide, .truncated, .unsupportedReport]
  | .setSide _ => [.ok, .sequenceError, .unknownSide]
  | .calLoadUser _ => [.ok, .unknownSide, .sequenceError, .needFactory]
  | .calLoadFactory _ => [.ok, .unknownSide, .sequenceError]
  | .calSetDeadzone _ => [.ok, .sequenceError]
  | .unmarshal _ => [.ok, .unknownSide]
  | .flashReq _ _ => [.ok, .flashBusy]
  | .flashReply _ => [.ok, .noPendingRead, .discarded, .nack]
  | .flashTimeout => [.noPendingRead, .timeout]
  | .reservedOp0 | .reservedOpF | .reservedRo _ | .reservedHi _ => [.illegalCommand]
  | .wireOutSubcmd _ | .wireOutRumble _ | .wireInStdReply _ | .wireInStdFull _ | .wireInNfcIr _ => []

/-! ### The angle semantics of the classifier -/

/-- The sector of an angle in degrees, 0 ≤ θ < 360, by half-open intervals (43_calibration.md R179). -/
def InSector (θ : ℝ) : Direction → Prop
  | .right => (330 ≤ θ ∧ θ < 360) ∨ (0 ≤ θ ∧ θ < 30)
  | .upperRight => 30 ≤ θ ∧ θ < 60
  | .up => 60 ≤ θ ∧ θ < 120
  | .upperLeft => 120 ≤ θ ∧ θ < 150
  | .left => 150 ≤ θ ∧ θ < 210
  | .lowerLeft => 210 ≤ θ ∧ θ < 240
  | .down => 240 ≤ θ ∧ θ < 300
  | .lowerRight => 300 ≤ θ ∧ θ < 330
  | .center => False
  | .invalid => False

/-- θ is the angle of the point (s, t) in degrees, `atan2(t, s)` normalised to [0, 360) (43_calibration.md R179): the
point lies at a positive distance in the direction θ. -/
def IsAngleOf (θ s t : ℝ) : Prop :=
  0 ≤ θ ∧ θ < 360 ∧
    ∃ r : ℝ, 0 < r ∧ s = r * Real.cos (θ * Real.pi / 180) ∧ t = r * Real.sin (θ * Real.pi / 180)

end Sys2Proof.Machine
end

