-- ==== Sys2Proof/Certificates/Slice0/Obligations.lean ====
section
/-! DEFINITION. The statements for the provers. Each docstring names the rules of spec/ it formalises.
`{ s with … }` on the right of an equation is the whole frame: every field not named is unchanged. -/

open Sys2Proof Sys2Proof.Machine

/-! ### Encodings (30_encoding.md) -/

/-- R62, R64: the decoder reads back every encoded command, whatever follows it in the stream. -/
def Obligations.DecodeReadsBackEncodedCommand : Prop :=
  ∀ (i : Instr) (rest : List Byte), i.wellFormed = true → i.isCommand = true →
    decode (encode i ++ rest) = .ok (i, rest)

/-- R62, R63: whatever the decoder reads is a well-formed command, and the bytes it consumed are its encoding, as long
as the table of R62 says. -/
def Obligations.DecodedBytesAreTheEncoding : Prop :=
  ∀ (bytes rest : List Byte) (i : Instr), decode bytes = .ok (i, rest) →
    i.wellFormed = true ∧ i.isCommand = true ∧ bytes = encode i ++ rest ∧
      bytes.length = encodedLength i + rest.length

/-- R61, R62 on one word for each legal descriptor and each reserved row. All are streams of 95_test_vectors.md (V-ENC-3,
V-CTL-6, programs P1 to P4) but those of 0x03, 0x09 and 0x0B, which are written out from R61 and R62. -/
def Obligations.SpecWordsDecode : Prop :=
  decode [0x01#8, 0x48#8, 0x01#8, 0x01#8] = .ok (.encodeSubcmd 0x48#8 [0x01#8], []) ∧
  decode [0x11#8, 0x48#8, 0x01#8, 0x04#8, 0x8A#8, 0x40#8, 0x40#8, 0x04#8, 0x8A#8, 0x40#8, 0x40#8, 0x01#8] =
    .ok (.encodeSubcmdRo 0x48#8 ⟨0x04#8, 0x8A#8, 0x40#8, 0x40#8, 0x04#8, 0x8A#8, 0x40#8, 0x40#8⟩ [0x01#8], []) ∧
  decode [0x02#8] = .ok (.encodeRumble, []) ∧
  decode [0x03#8, 0x03#8, 0x30#8, 0x5A#8, 0x8E#8] = .ok (.decode [0x30#8, 0x5A#8, 0x8E#8], []) ∧
  decode [0x04#8, 0x06#8, 0x20#8] = .ok (.setSide 0x2006#16, []) ∧
  decode [0x05#8, 0xDC#8, 0x85#8, 0x57#8, 0x00#8, 0x08#8, 0x80#8, 0xDC#8, 0x85#8, 0x57#8] =
    .ok (.calLoadUser ⟨0xDC#8, 0x85#8, 0x57#8, 0x00#8, 0x08#8, 0x80#8, 0xDC#8, 0x85#8, 0x57#8⟩, []) ∧
  decode [0x06#8, 0xF0#8, 0x37#8, 0x81#8, 0x00#8, 0x06#8, 0x5A#8, 0x40#8, 0x06#8, 0x62#8] =
    .ok (.calLoadFactory ⟨0xF0#8, 0x37#8, 0x81#8, 0x00#8, 0x06#8, 0x5A#8, 0x40#8, 0x06#8, 0x62#8⟩, []) ∧
  decode [0x07#8, 0x0F#8, 0x30#8, 0x61#8, 0xA0#8, 0x31#8] =
    .ok (.calSetDeadzone ⟨0x0F#8, 0x30#8, 0x61#8, 0xA0#8, 0x31#8⟩, []) ∧
  decode [0x08#8, 0xB8#8, 0x8B#8, 0xBB#8] = .ok (.classify 3000#12 3000#12, []) ∧
  decode [0x09#8, 0xF0#8, 0x37#8, 0x81#8, 0x00#8, 0x06#8, 0x5A#8, 0x40#8, 0x06#8, 0x62#8] =
    .ok (.unmarshal ⟨0xF0#8, 0x37#8, 0x81#8, 0x00#8, 0x06#8, 0x5A#8, 0x40#8, 0x06#8, 0x62#8⟩, []) ∧
  decode [0x0A#8, 0x12#8, 0x80#8, 0x00#8, 0x00#8, 0x09#8] = .ok (.flashReq 0x8012#32 9#8, []) ∧
  decode [0x0B#8, 0x02#8, 0x21#8, 0x00#8] = .ok (.flashReply [0x21#8, 0x00#8], []) ∧
  decode [0x0C#8] = .ok (.flashTimeout, []) ∧ decode [0x0D#8] = .ok (.readState, []) ∧
  decode [0x0E#8] = .ok (.sessionClear, []) ∧ decode [0x00#8] = .ok (.reservedOp0, []) ∧
  decode [0x0F#8] = .ok (.reservedOpF, []) ∧ decode [0x12#8] = .ok (.reservedRo 2#4, []) ∧
  decode [0x31#8] = .ok (.reservedHi 0x31#8, [])

/-- R64, R202: a descriptor with OP = 0x0, OP = 0xF, CMD[7:5] other than 0, or RO = 1 with OP other than 0x1 answers
ILLEGAL_COMMAND when it is next at the port: that one byte is consumed and nothing else changes. -/
def Obligations.IllegalDescriptorAnswersIllegalCommand : Prop :=
  ∀ (s : State) (cmd : Byte) (rest : List Byte), s.turns = [] → s.stream = cmd :: rest →
    (cmd.toNat % 16 = 0 ∨ cmd.toNat % 16 = 15 ∨ cmd.toNat / 32 ≠ 0 ∨
      (cmd.toNat / 16 % 2 = 1 ∧ cmd.toNat % 16 ≠ 1)) →
    step s = .next { s with stream := rest, responses := s.responses ++ [⟨.illegalCommand, .none⟩] }

/-- R61, R62: the opcode map with its operand layouts. Each legal descriptor, its operands there in the order of R62,
selects its own command with those operands, multi-byte ones low byte first, and leaves the bytes after it; 0x00 and 0x0F
are reserved rows; and a decoded command is a reserved row exactly when its descriptor is illegal (R64). -/
def Obligations.LegalDescriptorSelectsCommand : Prop :=
  (∀ (sc plen : Byte) (pay rest : List Byte), pay.length = plen.toNat →
    decode (0x01#8 :: sc :: plen :: (pay ++ rest)) = .ok (.encodeSubcmd sc pay, rest)) ∧
  (∀ (sc plen r0 r1 r2 r3 r4 r5 r6 r7 : Byte) (pay rest : List Byte), pay.length = plen.toNat →
    decode (0x11#8 :: sc :: plen :: r0 :: r1 :: r2 :: r3 :: r4 :: r5 :: r6 :: r7 :: (pay ++ rest)) =
      .ok (.encodeSubcmdRo sc ⟨r0, r1, r2, r3, r4, r5, r6, r7⟩ pay, rest)) ∧
  (∀ rest : List Byte, decode (0x02#8 :: rest) = .ok (.encodeRumble, rest)) ∧
  (∀ (len : Byte) (frame rest : List Byte), frame.length = len.toNat →
    decode (0x03#8 :: len :: (frame ++ rest)) = .ok (.decode frame, rest)) ∧
  (∀ (lo hi : Byte) (rest : List Byte), ∃ pid : BitVec 16,
    decode (0x04#8 :: lo :: hi :: rest) = .ok (.setSide pid, rest) ∧ pid.toNat = lo.toNat + 256 * hi.toNat) ∧
  (∀ (b0 b1 b2 b3 b4 b5 b6 b7 b8 : Byte) (rest : List Byte),
    decode (0x05#8 :: b0 :: b1 :: b2 :: b3 :: b4 :: b5 :: b6 :: b7 :: b8 :: rest) =
      .ok (.calLoadUser ⟨b0, b1, b2, b3, b4, b5, b6, b7, b8⟩, rest) ∧
    decode (0x06#8 :: b0 :: b1 :: b2 :: b3 :: b4 :: b5 :: b6 :: b7 :: b8 :: rest) =
      .ok (.calLoadFactory ⟨b0, b1, b2, b3, b4, b5, b6, b7, b8⟩, rest) ∧
    decode (0x09#8 :: b0 :: b1 :: b2 :: b3 :: b4 :: b5 :: b6 :: b7 :: b8 :: rest) =
      .ok (.unmarshal ⟨b0, b1, b2, b3, b4, b5, b6, b7, b8⟩, rest)) ∧
  (∀ (p0 p1 p2 p3 p4 : Byte) (rest : List Byte),
    decode (0x07#8 :: p0 :: p1 :: p2 :: p3 :: p4 :: rest) = .ok (.calSetDeadzone ⟨p0, p1, p2, p3, p4⟩, rest)) ∧
  (∀ (b0 b1 b2 : Byte) (rest : List Byte), ∃ h v : Word12,
    decode (0x08#8 :: b0 :: b1 :: b2 :: rest) = .ok (.classify h v, rest) ∧
    h.toNat = b0.toNat + 256 * (b1.toNat % 16) ∧ v.toNat = b1.toNat / 16 + 16 * b2.toNat) ∧
  (∀ (a0 a1 a2 a3 size : Byte) (rest : List Byte), ∃ addr : BitVec 32,
    decode (0x0A#8 :: a0 :: a1 :: a2 :: a3 :: size :: rest) = .ok (.flashReq addr size, rest) ∧
    addr.toNat = a0.toNat + 256 * a1.toNat + 256 ^ 2 * a2.toNat + 256 ^ 3 * a3.toNat) ∧
  (∀ (len : Byte) (frame rest : List Byte), frame.length = len.toNat →
    decode (0x0B#8 :: len :: (frame ++ rest)) = .ok (.flashReply frame, rest)) ∧
  (∀ rest : List Byte, decode (0x0C#8 :: rest) = .ok (.flashTimeout, rest) ∧
    decode (0x0D#8 :: rest) = .ok (.readState, rest) ∧ decode (0x0E#8 :: rest) = .ok (.sessionClear, rest) ∧
    decode (0x00#8 :: rest) = .ok (.reservedOp0, rest) ∧ decode (0x0F#8 :: rest) = .ok (.reservedOpF, rest)) ∧
  ∀ (cmd : Byte) (rest left : List Byte) (i : Instr), decode (cmd :: rest) = .ok (i, left) →
    ((i = .reservedOp0 ∨ i = .reservedOpF ∨ (∃ op, i = .reservedRo op) ∨ (∃ c, i = .reservedHi c)) ↔
      (cmd.toNat % 16 = 0 ∨ cmd.toNat % 16 = 15 ∨ cmd.toNat / 32 ≠ 0 ∨
        (cmd.toNat / 16 % 2 = 1 ∧ cmd.toNat % 16 ≠ 1)))

/-- R71: the two values of three packed bytes, as numbers. -/
def Obligations.UnpackFollowsNibbleFormula : Prop :=
  ∀ b0 b1 b2 : Byte,
    (unpack12 b0 b1 b2).1.toNat = b0.toNat + 256 * (b1.toNat % 16) ∧
    (unpack12 b0 b1 b2).2.toNat = b1.toNat / 16 + 16 * b2.toNat

/-- R72: packing and unpacking are inverse to each other, both ways. -/
def Obligations.PackingIsABijection : Prop :=
  (∀ first second : Word12,
    unpack12 (packByte0 first) (packByte1 first second) (packByte2 second) = (first, second)) ∧
  (∀ b0 b1 b2 : Byte,
    packByte0 (unpack12 b0 b1 b2).1 = b0 ∧
    packByte1 (unpack12 b0 b1 b2).1 (unpack12 b0 b1 b2).2 = b1 ∧
    packByte2 (unpack12 b0 b1 b2).2 = b2)

/-! ### The step (00_scope.md R9, 20_memory.md R48, 60_exceptions.md R225) -/

/-- R9, R48: when the bytes at the served port decode to a command, the step is that command's meaning in the state
with its bytes consumed. -/
def Obligations.StepRunsTheDecodedCommand : Prop :=
  ∀ (s : State) (i : Instr) (rest : List Byte), decode s.takeTurn.stream = .ok (i, rest) →
    step s = exec i { s.takeTurn with stream := rest }

/-- R225: a stream that ends inside a command leaves it unexecuted, with no status and no change; that
the step then answers the same state is the model's choice (log entry 3). -/
def Obligations.IncompleteCommandIsNotExecuted : Prop :=
  ∀ (s : State) (i : Instr) (n : Nat), i.wellFormed = true → i.isCommand = true → n < (encode i).length →
    s.turns = [] → s.stream = (encode i).take n → step s = .next s

/-- R10, R223: every step of every state answers a next state. The rules speak of commands: that a step with no complete
command at the port also answers a next state (it waits) is the model's choice (DESIGN CHOICE, log entry 3), and that no
step is refused rests on the five WIRE rows being no commands of the stream (DEDUCED, log entry 8). -/
def Obligations.EveryStepAnswersANextState : Prop :=
  ∀ s : State, ∃ t, step s = .next t

/-- R10, R211: every command, in every state, ends in exactly one response, with a status its row of the cause table
allows. -/
def Obligations.EveryCommandGivesOneAllowedResponse : Prop :=
  ∀ (i : Instr) (s : State), i.isCommand = true →
    ∃ (t : State) (st : Status) (r : Result), exec i s = .next t ∧
      t.responses = s.responses ++ [⟨st, r⟩] ∧ st ∈ mayReturn i

/-- R212: what each status leaves of the state. An error status other than NACK and TIMEOUT, and DISCARDED, write
nothing; NACK and TIMEOUT clear FLASH_PEND; NEED_FACTORY sets CAL_STATE; and none of them carries a result. -/
def Obligations.StatusDecidesWhatIsWritten : Prop :=
  ∀ (i : Instr) (s t : State) (st : Status) (r : Result),
    exec i s = .next t → t.responses = s.responses ++ [⟨st, r⟩] → st ≠ .ok →
      r = .none ∧
      (if st = .nack ∨ st = .timeout then t = { s with flashPend := false, responses := t.responses }
       else if st = .needFactory then t = { s with calState := .needFactory, responses := t.responses }
       else t = { s with responses := t.responses })

/-- R47: DECODE, UNMARSHAL, CLASSIFY and READ_STATE write no state, and repeating one gives the same response. -/
def Obligations.ReadOnlyCommandsAreIdempotent : Prop :=
  ∀ (i : Instr) (s t : State),
    ((∃ f, i = .decode f) ∨ (∃ raw, i = .unmarshal raw) ∨ (∃ h v, i = .classify h v) ∨ i = .readState) →
    exec i s = .next t →
      ∃ r : Response, t = { s with responses := s.responses ++ [r] } ∧
        exec i t = .next { s with responses := s.responses ++ [r] ++ [r] }

/-- R28, R29: no command reads an earlier command's response, nor anything of its environment: from two states with the
same registers it writes the same registers and gives the same response. -/
def Obligations.OutcomeDependsOnRegistersAlone : Prop :=
  ∀ (i : Instr) (s t : State) (stream : List Byte) (responses : List Response) (peers : List Block)
    (turns : List Turn) (sharing : SeqSharing) (r : Response),
    exec i s = .next t → t.responses = s.responses ++ [r] →
      exec i { s with stream := stream, responses := responses, peers := peers, turns := turns,
                      sharing := sharing } =
        .next { t with stream := stream, responses := responses ++ [r], peers := peers, turns := turns,
                       sharing := sharing }

/-! ### The framer (40_framer.md) -/

/-- R66, R68, R100, R101: with at most 38 payload bytes, ENCODE_SUBCMD in both forms answers OK with a 49-byte frame,
byte for byte, and advances SEQ by one; nothing else changes. The report id 0x01 is the spec's general knowledge (log
entry 7). -/
def Obligations.EncodeSubcmdBuildsTheFrame : Prop :=
  ∀ (s : State) (i : Instr) (sc : Byte) (pay rumble : List Byte), pay.length ≤ 38 →
    ((i = .encodeSubcmd sc pay ∧ rumble = [0x00#8, 0x01#8, 0x40#8, 0x40#8, 0x00#8, 0x01#8, 0x40#8, 0x40#8]) ∨
      (∃ rb : Rumble8, i = .encodeSubcmdRo sc rb pay ∧
        rumble = [rb.r0, rb.r1, rb.r2, rb.r3, rb.r4, rb.r5, rb.r6, rb.r7])) →
    ∃ f : List Byte,
      exec i s = .next { s with seq := s.seq + 1#4, responses := s.responses ++ [⟨.ok, .frame f⟩] } ∧
      f.length = 49 ∧ f[0]? = some 0x01#8 ∧ f[1]?.map BitVec.toNat = some s.seq.toNat ∧
      (∀ k, k < 8 → f[2 + k]? = rumble[k]?) ∧ f[10]? = some sc ∧
      (∀ k, k < pay.length → f[11 + k]? = pay[k]?) ∧
      (∀ k, 11 + pay.length ≤ k → k < 49 → f[k]? = some 0x00#8)

/-- R101: a payload of more than 38 bytes gives PAYLOAD_TOO_LARGE in both forms: no frame, SEQ unchanged. -/
def Obligations.OversizedPayloadIsRejected : Prop :=
  ∀ (s : State) (sc : Byte) (rb : Rumble8) (pay : List Byte), 38 < pay.length →
    exec (.encodeSubcmd sc pay) s =
      .next { s with responses := s.responses ++ [⟨.payloadTooLarge, .none⟩] } ∧
    exec (.encodeSubcmdRo sc rb pay) s =
      .next { s with responses := s.responses ++ [⟨.payloadTooLarge, .none⟩] }

/-- R67, R100, R102: ENCODE_RUMBLE answers OK with a 49-byte frame 0x10, SEQ, zeros, and advances SEQ.
The report id 0x10 is the spec's general knowledge (log entry 7). -/
def Obligations.EncodeRumbleBuildsTheFrame : Prop :=
  ∀ s : State, ∃ f : List Byte,
    exec .encodeRumble s = .next { s with seq := s.seq + 1#4, responses := s.responses ++ [⟨.ok, .frame f⟩] } ∧
    f.length = 49 ∧ f[0]? = some 0x10#8 ∧ f[1]?.map BitVec.toNat = some s.seq.toNat ∧
    (∀ k, 2 ≤ k → k < 49 → f[k]? = some 0x00#8)

/-- R100, R242: SEQ changes only with a frame, by one modulo 16, and the frame carries the value before. -/
def Obligations.SeqAdvancesExactlyWithAFrame : Prop :=
  ∀ (i : Instr) (s t : State), exec i s = .next t →
    (t.seq = s.seq ∧ ∃ r : Response, t.responses = s.responses ++ [r] ∧ r.isFrame = false) ∨
    (t.seq.toNat = (s.seq.toNat + 1) % 16 ∧
      ∃ f, t.responses = s.responses ++ [⟨.ok, .frame f⟩] ∧ f[1]?.map BitVec.toNat = some s.seq.toNat)

/-- R103: over any run of one instance, SEQ is its start value plus the number of frames built, modulo 16, and the
frames carry consecutive numbers from the start value on, modulo 16. -/
def Obligations.SeqCountsFramesOverARun : Prop :=
  ∀ (n : Nat) (s t : State), s.turns = [] → Host.Core.run core n s = .next t →
    ∃ given : List Response, t.responses = s.responses ++ given ∧
      t.seq.toNat = (s.seq.toNat + (given.filter Response.isFrame).length) % 16 ∧
      ∀ (j : Nat) (f : List Byte), (given.filter Response.isFrame)[j]? = some ⟨.ok, .frame f⟩ →
        f[1]?.map BitVec.toNat = some ((s.seq.toNat + j) % 16)

/-! ### Flash reads (41_flash.md) -/

/-- R80, R121: with no read pending, FLASH_REQ answers OK with the request frame, byte for byte; SEQ advances, the read
is pending, and its size is min(SIZE, 29). The ids 0x01 and 0x10 are the spec's general knowledge (log entry 7). -/
def Obligations.FlashReqBuildsTheRequest : Prop :=
  ∀ (s : State) (addr : BitVec 32) (size : Byte), s.flashPend = false →
    ∃ (f : List Byte) (sz : BitVec 5),
      exec (.flashReq addr size) s =
        .next { s with seq := s.seq + 1#4, flashPend := true, flashSize := sz,
                       responses := s.responses ++ [⟨.ok, .frame f⟩] } ∧
      sz.toNat = min size.toNat 29 ∧ f.length = 49 ∧ f[0]? = some 0x01#8 ∧
      f[1]?.map BitVec.toNat = some s.seq.toNat ∧
      (∀ k, k < 8 → f[2 + k]? =
        [0x00#8, 0x01#8, 0x40#8, 0x40#8, 0x00#8, 0x01#8, 0x40#8, 0x40#8][k]?) ∧
      f[10]? = some 0x10#8 ∧
      (∀ k, k < 4 → f[11 + k]?.map BitVec.toNat = some (addr.toNat / 256 ^ k % 256)) ∧
      f[15]?.map BitVec.toNat = some (min size.toNat 29) ∧
      (∀ k, 16 ≤ k → k < 49 → f[k]? = some 0x00#8)

/-- R121: while a read is pending FLASH_REQ gives FLASH_BUSY and changes nothing. -/
def Obligations.FlashReqIsBusyWhilePending : Prop :=
  ∀ (s : State) (addr : BitVec 32) (size : Byte), s.flashPend = true →
    exec (.flashReq addr size) s = .next { s with responses := s.responses ++ [⟨.flashBusy, .none⟩] }

/-- R121: any size over 29 acts as 29. -/
def Obligations.OversizedFlashReqActsAsTwentyNine : Prop :=
  ∀ (s : State) (addr : BitVec 32) (size : Byte), 29 < size.toNat →
    exec (.flashReq addr size) s = exec (.flashReq addr 29#8) s

/-- R122, R213: FLASH_REPLY, in the order of its checks: NO_PENDING_READ; DISCARDED for a short frame; DISCARDED for a
frame whose byte 0 or byte 14 does not match; NACK for a match with byte 13 bit 7 clear, which ends the read. The ids
0x21 and 0x10 and the place 14 are the spec's general knowledge (log entry 7). -/
def Obligations.FlashReplyRejections : Prop :=
  ∀ (s : State) (frame : List Byte),
    (s.flashPend = false →
      exec (.flashReply frame) s = .next { s with responses := s.responses ++ [⟨.noPendingRead, .none⟩] }) ∧
    (s.flashPend = true → frame.length < 49 →
      exec (.flashReply frame) s = .next { s with responses := s.responses ++ [⟨.discarded, .none⟩] }) ∧
    (s.flashPend = true → 49 ≤ frame.length → (frame[0]? ≠ some 0x21#8 ∨ frame[14]? ≠ some 0x10#8) →
      exec (.flashReply frame) s = .next { s with responses := s.responses ++ [⟨.discarded, .none⟩] }) ∧
    (∀ ack : Byte, s.flashPend = true → 49 ≤ frame.length → frame[0]? = some 0x21#8 →
      frame[14]? = some 0x10#8 → frame[13]? = some ack → ack.toNat < 128 →
      exec (.flashReply frame) s =
        .next { s with flashPend := false, responses := s.responses ++ [⟨.nack, .none⟩] })

/-- R122, R124: a matching, acknowledged reply answers OK with FLASH_SIZE bytes of the frame from byte 20 on, all inside
it, and ends the read. The premise on FLASH_SIZE is the register's range (R27), kept by every step
(StepKeepsTheInvariant). The ids and the place 14 are the spec's general knowledge (log entry 7). -/
def Obligations.FlashReplyReturnsTheData : Prop :=
  ∀ (s : State) (frame : List Byte) (ack : Byte),
    s.flashPend = true → s.flashSize.toNat ≤ 29 → 49 ≤ frame.length → frame[0]? = some 0x21#8 →
    frame[14]? = some 0x10#8 → frame[13]? = some ack → 128 ≤ ack.toNat →
    ∃ d : List Byte,
      exec (.flashReply frame) s =
        .next { s with flashPend := false, responses := s.responses ++ [⟨.ok, .data d⟩] } ∧
      d.length = s.flashSize.toNat ∧ ∀ k, k < s.flashSize.toNat → d[k]? = frame[20 + k]?

/-- R125: FLASH_TIMEOUT gives TIMEOUT and clears the pending read, or NO_PENDING_READ and changes nothing. -/
def Obligations.FlashTimeoutEndsThePendingRead : Prop :=
  ∀ s : State,
    (s.flashPend = true →
      exec .flashTimeout s = .next { s with flashPend := false, responses := s.responses ++ [⟨.timeout, .none⟩] }) ∧
    (s.flashPend = false →
      exec .flashTimeout s = .next { s with responses := s.responses ++ [⟨.noPendingRead, .none⟩] })

/-- R26, R126: a read becomes pending only by a FLASH_REQ that builds a frame, and stops being pending only by a
FLASH_REPLY that answers OK or NACK, by a FLASH_TIMEOUT that answers TIMEOUT, or by SESSION_CLEAR. -/
def Obligations.PendingReadEndsOnlyByItsOutcomes : Prop :=
  ∀ (i : Instr) (s t : State), exec i s = .next t →
    (s.flashPend = false → t.flashPend = true →
      (∃ a z, i = .flashReq a z) ∧ ∃ f, t.responses = s.responses ++ [⟨.ok, .frame f⟩]) ∧
    (s.flashPend = true → t.flashPend = false →
      (∃ f d, i = .flashReply f ∧ t.responses = s.responses ++ [⟨.ok, .data d⟩]) ∨
      (∃ f, i = .flashReply f ∧ t.responses = s.responses ++ [⟨.nack, .none⟩]) ∨
      (i = .flashTimeout ∧ t.responses = s.responses ++ [⟨.timeout, .none⟩]) ∨
      i = .sessionClear)

/-! ### The parser (42_parser.md) -/

/-- R140 to R146, R73 to R76 for the left half: a recognised report of at least 49 bytes gives OK and the DeviceStatus
word, field by field; nothing is written. The byte-4 positions and the report ids are the spec's general knowledge
(log entry 7). -/
def Obligations.DecodeReadsTheLeftHalf : Prop :=
  ∀ (s : State) (frame : List Byte) (b0 b2 b4 b5 b6 b7 b8 : Byte),
    s.side = .left → 49 ≤ frame.length → (b0 = 0x21#8 ∨ b0 = 0x30#8 ∨ b0 = 0x31#8) →
    frame[0]? = some b0 → frame[2]? = some b2 → frame[4]? = some b4 → frame[5]? = some b5 →
    frame[6]? = some b6 → frame[7]? = some b7 → frame[8]? = some b8 →
    ∃ w : BitVec 64,
      exec (.decode frame) s = .next { s with responses := s.responses ++ [⟨.ok, .deviceStatus w⟩] } ∧
      w.extractLsb' 0 8 = b0 ∧
      (w.extractLsb' 8 3).toNat =
        (if b2.toNat / 16 = 0 then 0 else if b2.toNat / 16 = 2 then 1 else if b2.toNat / 16 = 4 then 2
         else if b2.toNat / 16 = 6 then 3 else if b2.toNat / 16 = 8 then 4 else 7) ∧
      (w.extractLsb' 11 2).toNat = b2.toNat / 2 % 4 ∧
      (w.extractLsb' 13 1).toNat = 0 ∧
      (w.extractLsb' 14 12).toNat =
        b5.toNat + 256 * (b4.toNat % 2) + 512 * (b4.toNat / 8 % 2) + 1024 * (b4.toNat / 32 % 2) +
          2048 * (b4.toNat / 128) ∧
      (w.extractLsb' 26 12).toNat = b6.toNat + 256 * (b7.toNat % 16) ∧
      (w.extractLsb' 38 12).toNat = b7.toNat / 16 + 16 * b8.toNat ∧
      (w.extractLsb' 50 4).toNat =
        (if s.calState = .locked then
          (match classify s.toBlock (w.extractLsb' 26 12) (w.extractLsb' 38 12) with
            | .invalid => 0 | .center => 1 | .up => 2 | .upperRight => 3 | .right => 4
            | .lowerRight => 5 | .down => 6 | .lowerLeft => 7 | .left => 8 | .upperLeft => 9)
         else 0) ∧
      w.extractLsb' 54 10 = 0#10

/-- R140 to R146, R73 to R76 for the right half: as for the left half, with byte 3, bytes 9 to 11 and the right half's
bits of byte 4 (log entry 7). -/
def Obligations.DecodeReadsTheRightHalf : Prop :=
  ∀ (s : State) (frame : List Byte) (b0 b2 b3 b4 b9 b10 b11 : Byte),
    s.side = .right → 49 ≤ frame.length → (b0 = 0x21#8 ∨ b0 = 0x30#8 ∨ b0 = 0x31#8) →
    frame[0]? = some b0 → frame[2]? = some b2 → frame[3]? = some b3 → frame[4]? = some b4 →
    frame[9]? = some b9 → frame[10]? = some b10 → frame[11]? = some b11 →
    ∃ w : BitVec 64,
      exec (.decode frame) s = .next { s with responses := s.responses ++ [⟨.ok, .deviceStatus w⟩] } ∧
      w.extractLsb' 0 8 = b0 ∧
      (w.extractLsb' 8 3).toNat =
        (if b2.toNat / 16 = 0 then 0 else if b2.toNat / 16 = 2 then 1 else if b2.toNat / 16 = 4 then 2
         else if b2.toNat / 16 = 6 then 3 else if b2.toNat / 16 = 8 then 4 else 7) ∧
      (w.extractLsb' 11 2).toNat = b2.toNat / 2 % 4 ∧
      (w.extractLsb' 13 1).toNat = 1 ∧
      (w.extractLsb' 14 12).toNat =
        b3.toNat + 256 * (b4.toNat / 2 % 2) + 512 * (b4.toNat / 4 % 2) + 1024 * (b4.toNat / 16 % 2) +
          2048 * (b4.toNat / 128) ∧
      (w.extractLsb' 26 12).toNat = b9.toNat + 256 * (b10.toNat % 16) ∧
      (w.extractLsb' 38 12).toNat = b10.toNat / 16 + 16 * b11.toNat ∧
      (w.extractLsb' 50 4).toNat =
        (if s.calState = .locked then
          (match classify s.toBlock (w.extractLsb' 26 12) (w.extractLsb' 38 12) with
            | .invalid => 0 | .center => 1 | .up => 2 | .upperRight => 3 | .right => 4
            | .lowerRight => 5 | .down => 6 | .lowerLeft => 7 | .left => 8 | .upperLeft => 9)
         else 0) ∧
      w.extractLsb' 54 10 = 0#10

/-- R140, R213: the rejections of DECODE in the order of its checks; each changes nothing. The three
report ids are the spec's general knowledge (log entry 7). -/
def Obligations.DecodeRejections : Prop :=
  ∀ (s : State) (frame : List Byte),
    (s.side = .unset →
      exec (.decode frame) s = .next { s with responses := s.responses ++ [⟨.unknownSide, .none⟩] }) ∧
    (s.side ≠ .unset → frame.length < 49 →
      exec (.decode frame) s = .next { s with responses := s.responses ++ [⟨.truncated, .none⟩] }) ∧
    (s.side ≠ .unset → 49 ≤ frame.length →
      frame[0]? ≠ some 0x21#8 → frame[0]? ≠ some 0x30#8 → frame[0]? ≠ some 0x31#8 →
      exec (.decode frame) s = .next { s with responses := s.responses ++ [⟨.unsupportedReport, .none⟩] })

/-- R140, R143 to R145: DECODE of a long enough report reads bytes 0, 2 and 4, the button byte and the three stick
bytes of the selected half, and nothing else: reports that agree on them give the same outcome. -/
def Obligations.DecodeReadsOnlyItsBytes : Prop :=
  ∀ (s : State) (f g : List Byte), 49 ≤ f.length → 49 ≤ g.length →
    f[0]? = g[0]? → f[2]? = g[2]? → f[4]? = g[4]? →
    (s.side = .left → f[5]? = g[5]? ∧ f[6]? = g[6]? ∧ f[7]? = g[7]? ∧ f[8]? = g[8]?) →
    (s.side = .right → f[3]? = g[3]? ∧ f[9]? = g[9]? ∧ f[10]? = g[10]? ∧ f[11]? = g[11]?) →
    exec (.decode f) s = exec (.decode g) s

/-! ### Calibration (43_calibration.md) -/

/-- R160: SET_SIDE, in every CAL_STATE and for every product id. -/
def Obligations.SetSideFollowsTheProductId : Prop :=
  ∀ (s : State) (pid : BitVec 16),
    exec (.setSide pid) s =
      if s.calState ≠ .empty then
        .next { s with responses := s.responses ++ [⟨.sequenceError, .none⟩] }
      else if pid.toNat = 0x2006 then
        .next { s with side := .left, responses := s.responses ++ [⟨.ok, .none⟩] }
      else if pid.toNat = 0x2007 then
        .next { s with side := .right, responses := s.responses ++ [⟨.ok, .none⟩] }
      else .next { s with responses := s.responses ++ [⟨.unknownSide, .none⟩] }

/-- R162, with the layouts of R78, R82 and R161: UNMARSHAL gives UNKNOWN_SIDE with SIDE Unset, and with a side set, in
every CAL_STATE, OK with the six fields of the nine bytes, in the order CX, CY, MINX, MINY, MAXX, MAXY; nothing is
written. -/
def Obligations.UnmarshalReturnsTheSixFields : Prop :=
  ∀ (s : State) (raw : Raw9),
    (s.side = .unset →
      exec (.unmarshal raw) s = .next { s with responses := s.responses ++ [⟨.unknownSide, .none⟩] }) ∧
    (s.side ≠ .unset → ∃ w : BitVec 72,
      exec (.unmarshal raw) s = .next { s with responses := s.responses ++ [⟨.ok, .calibration w⟩] } ∧
      (∀ k, k < 6 → (w.extractLsb' (12 * k) 12).toNat =
        (if s.side = .left then
          [raw.b3.toNat + 256 * (raw.b4.toNat % 16), raw.b4.toNat / 16 + 16 * raw.b5.toNat,
           raw.b6.toNat + 256 * (raw.b7.toNat % 16), raw.b7.toNat / 16 + 16 * raw.b8.toNat,
           raw.b0.toNat + 256 * (raw.b1.toNat % 16), raw.b1.toNat / 16 + 16 * raw.b2.toNat]
         else
          [raw.b0.toNat + 256 * (raw.b1.toNat % 16), raw.b1.toNat / 16 + 16 * raw.b2.toNat,
           raw.b3.toNat + 256 * (raw.b4.toNat % 16), raw.b4.toNat / 16 + 16 * raw.b5.toNat,
           raw.b6.toNat + 256 * (raw.b7.toNat % 16), raw.b7.toNat / 16 + 16 * raw.b8.toNat]).getD k 0))

/-- R161: unmarshalling is a bijection from nine bytes to six 12-bit fields, for each side. -/
def Obligations.UnmarshalIsABijection : Prop :=
  ∀ half : Half, Function.Bijective fun raw : Raw9 => unmarshal raw half

/-- R163, R164: CAL_LOAD_USER in every state. UNKNOWN_SIDE with SIDE Unset; with a side set, SEQUENCE_ERROR outside
EMPTY and NEED_FACTORY, NEED_FACTORY for nine bytes 0xFF, which leaves the bank, and otherwise OK with all six registers
the unmarshalled fields. -/
def Obligations.CalLoadUserLoadsOrAsksForFactory : Prop :=
  ∀ (s : State) (raw : Raw9),
    (s.side = .unset →
      exec (.calLoadUser raw) s = .next { s with responses := s.responses ++ [⟨.unknownSide, .none⟩] }) ∧
    ∀ half : Half, (s.side = .left ∧ half = .left ∨ s.side = .right ∧ half = .right) →
      exec (.calLoadUser raw) s =
        if s.calState ≠ .empty ∧ s.calState ≠ .needFactory then
          .next { s with responses := s.responses ++ [⟨.sequenceError, .none⟩] }
        else if ∀ b ∈ [raw.b0, raw.b1, raw.b2, raw.b3, raw.b4, raw.b5, raw.b6, raw.b7, raw.b8], b = 0xFF#8 then
          .next { s with calState := .needFactory, responses := s.responses ++ [⟨.needFactory, .none⟩] }
        else
          .next { s with cx := (unmarshal raw half).cx, cy := (unmarshal raw half).cy,
                         minx := (unmarshal raw half).minx, miny := (unmarshal raw half).miny,
                         maxx := (unmarshal raw half).maxx, maxy := (unmarshal raw half).maxy,
                         calState := .loaded, responses := s.responses ++ [⟨.ok, .none⟩] }

/-- R165: CAL_LOAD_FACTORY in every state. UNKNOWN_SIDE with SIDE Unset; with a side set, SEQUENCE_ERROR outside EMPTY
and NEED_FACTORY, and otherwise OK, the bank loaded whatever the nine bytes are. -/
def Obligations.CalLoadFactoryLoads : Prop :=
  ∀ (s : State) (raw : Raw9),
    (s.side = .unset →
      exec (.calLoadFactory raw) s = .next { s with responses := s.responses ++ [⟨.unknownSide, .none⟩] }) ∧
    ∀ half : Half, (s.side = .left ∧ half = .left ∨ s.side = .right ∧ half = .right) →
      exec (.calLoadFactory raw) s =
        if s.calState ≠ .empty ∧ s.calState ≠ .needFactory then
          .next { s with responses := s.responses ++ [⟨.sequenceError, .none⟩] }
        else
          .next { s with cx := (unmarshal raw half).cx, cy := (unmarshal raw half).cy,
                         minx := (unmarshal raw half).minx, miny := (unmarshal raw half).miny,
                         maxx := (unmarshal raw half).maxx, maxy := (unmarshal raw half).maxy,
                         calState := .loaded, responses := s.responses ++ [⟨.ok, .none⟩] }

/-- R79, R166: CAL_SET_DEADZONE takes byte 3 and locks the calibration in LOADED; anywhere else it gives
SEQUENCE_ERROR and changes nothing. -/
def Obligations.CalSetDeadzoneLocks : Prop :=
  ∀ (s : State) (p0 p1 p2 p3 p4 : Byte),
    exec (.calSetDeadzone ⟨p0, p1, p2, p3, p4⟩) s =
      if s.calState = .loaded then
        .next { s with dz := p3, calState := .locked, responses := s.responses ++ [⟨.ok, .none⟩] }
      else .next { s with responses := s.responses ++ [⟨.sequenceError, .none⟩] }

/-- R23, R201: the calibration lifecycle moves only along EMPTY or NEED_FACTORY to NEED_FACTORY or LOADED, and LOADED to
LOCKED, or back to EMPTY by SESSION_CLEAR. -/
def Obligations.CalibrationLifecycleMovesForward : Prop :=
  ∀ (i : Instr) (s t : State), exec i s = .next t → i ≠ .sessionClear → t.calState ≠ s.calState →
    (s.calState = .empty ∧ (t.calState = .needFactory ∨ t.calState = .loaded)) ∨
    (s.calState = .needFactory ∧ t.calState = .loaded) ∨
    (s.calState = .loaded ∧ t.calState = .locked)

/-- R22, R23, R160: once a calibration has been offered the side is fixed, and a LOCKED calibration (its bank, its
deadzone and its state) is immutable, until SESSION_CLEAR. -/
def Obligations.LockedCalibrationIsImmutable : Prop :=
  ∀ (i : Instr) (s t : State), exec i s = .next t → i ≠ .sessionClear →
    (s.calState ≠ .empty → t.side = s.side) ∧
    (s.calState = .locked →
      t.calState = .locked ∧ t.dz = s.dz ∧ t.cx = s.cx ∧ t.cy = s.cy ∧ t.minx = s.minx ∧ t.miny = s.miny ∧
        t.maxx = s.maxx ∧ t.maxy = s.maxy)

/-! ### The classifier (43_calibration.md R170 to R182) -/

/-- R170, R75: CLASSIFY answers OK in every state with a direction code, that of the classifier's direction in the table
of R75 when the calibration is LOCKED and 0, Invalid, otherwise; it writes nothing. -/
def Obligations.ClassifyAnswersADirection : Prop :=
  ∀ (s : State) (h v : Word12), ∃ code : BitVec 4,
    exec (.classify h v) s = .next { s with responses := s.responses ++ [⟨.ok, .direction code⟩] } ∧
    code.toNat =
      (if s.calState = .locked then
        (match classify s.toBlock h v with
          | .invalid => 0 | .center => 1 | .up => 2 | .upperRight => 3 | .right => 4
          | .lowerRight => 5 | .down => 6 | .lowerLeft => 7 | .left => 8 | .upperLeft => 9)
       else 0)

/-- R172, R173, R175, R182: the direction of a sample is Invalid in exactly three cases: not LOCKED; an axis whose two
offsets are both 0; a divisor of 0 or less outside the deadzone. -/
def Obligations.InvalidDirectionInExactlyThreeCases : Prop :=
  ∀ (b : Block) (h v : Word12) (midx midy : Int),
    midx = (b.cx.toNat : Int) + ((b.maxx.toNat : Int) - b.minx.toNat) / 2 →
    midy = (b.cy.toNat : Int) + ((b.maxy.toNat : Int) - b.miny.toNat) / 2 →
    (directionOf b h v = .invalid ↔
      b.calState ≠ .locked ∨ (b.minx = 0#12 ∧ b.maxx = 0#12) ∨ (b.miny = 0#12 ∧ b.maxy = 0#12) ∨
      ((b.dz.toNat : Int) ^ 2 < ((h.toNat : Int) - midx) ^ 2 + ((v.toNat : Int) - midy) ^ 2 ∧
        (midx - 1 ≤ 0 ∨ midy - 1 ≤ 0)))

/-- R173, R174: with a proper range on both axes, a sample is Center exactly when its squared distance from the axis
centre is at most the squared deadzone; so a sample at the axis centre is Center for every deadzone. -/
def Obligations.CenterExactlyWithinTheDeadzone : Prop :=
  ∀ (b : Block) (h v : Word12) (midx midy : Int),
    midx = (b.cx.toNat : Int) + ((b.maxx.toNat : Int) - b.minx.toNat) / 2 →
    midy = (b.cy.toNat : Int) + ((b.maxy.toNat : Int) - b.miny.toNat) / 2 →
    ¬ (b.minx = 0#12 ∧ b.maxx = 0#12) → ¬ (b.miny = 0#12 ∧ b.maxy = 0#12) →
    (classify b h v = .center ↔
      ((h.toNat : Int) - midx) ^ 2 + ((v.toNat : Int) - midy) ^ 2 ≤ (b.dz.toNat : Int) ^ 2)

/-- R178 to R180: outside the deadzone, with positive divisors, the direction is the sector of R179 that holds the angle
of the normalised, clamped offsets (each offset divided by its divisor and clamped to [-1, 1]), for every sample. -/
def Obligations.ClassifierIsTheAngleTable : Prop :=
  ∀ (b : Block) (h v : Word12) (midx midy : Int) (θ : ℝ),
    midx = (b.cx.toNat : Int) + ((b.maxx.toNat : Int) - b.minx.toNat) / 2 →
    midy = (b.cy.toNat : Int) + ((b.maxy.toNat : Int) - b.miny.toNat) / 2 →
    ¬ (b.minx = 0#12 ∧ b.maxx = 0#12) → ¬ (b.miny = 0#12 ∧ b.maxy = 0#12) →
    (b.dz.toNat : Int) ^ 2 < ((h.toNat : Int) - midx) ^ 2 + ((v.toNat : Int) - midy) ^ 2 →
    0 < midx - 1 → 0 < midy - 1 →
    IsAngleOf θ (min (max ((((h.toNat : Int) - midx : Int) : ℝ) / ((midx - 1 : Int) : ℝ)) (-1)) 1)
      (min (max ((((v.toNat : Int) - midy : Int) : ℝ) / ((midy - 1 : Int) : ℝ)) (-1)) 1) →
    InSector θ (classify b h v)

/-- R180: no sample lands on a sector edge. Wherever the classifier comes to its sector step (proper ranges, outside the
deadzone, positive divisors), it answers the sector of the clamped offsets; the two quantities A and B that step compares
never meet A = 3B or B = 3A, so exactly one of its three cases holds; and the angle of the normalised offsets is none of
the eight edges of R179. -/
def Obligations.SectorEdgesAreNeverReached : Prop :=
  ∀ (b : Block) (h v : Word12) (x y : Axis) (dx dy cx cy A B : Int),
    x = axisOf b.cx b.minx b.maxx → y = axisOf b.cy b.miny b.maxy → x.lo < x.hi → y.lo < y.hi →
    dx = h.int - x.mid → dy = v.int - y.mid → (b.dz.toNat : Int) ^ 2 < dx ^ 2 + dy ^ 2 →
    0 < x.divisor → 0 < y.divisor →
    cx = clampInt dx (-x.divisor) x.divisor → cy = clampInt dy (-y.divisor) y.divisor →
    A = cx ^ 2 * y.divisor ^ 2 → B = cy ^ 2 * x.divisor ^ 2 →
      classify b h v = sector cx cy x.divisor y.divisor ∧
      A ≠ 3 * B ∧ B ≠ 3 * A ∧
      ((3 * B < A ∧ ¬ 3 * A < B) ∨ (3 * A < B ∧ ¬ 3 * B < A) ∨ (A < 3 * B ∧ B < 3 * A)) ∧
      ∀ θ : ℝ, IsAngleOf θ ((cx : ℝ) / (x.divisor : ℝ)) ((cy : ℝ) / (y.divisor : ℝ)) →
        θ ≠ 30 ∧ θ ≠ 60 ∧ θ ≠ 120 ∧ θ ≠ 150 ∧ θ ≠ 210 ∧ θ ≠ 240 ∧ θ ≠ 300 ∧ θ ≠ 330

/-- R181: the ranges of the classifier's values for 12-bit inputs, on each axis: the sum of the effective minimum and
maximum, the centre, the offset, the divisor where it is positive; the squared distance and the squared deadzone; and the
two quantities A and B of the sector step. -/
def Obligations.ClassifierValuesStayInRange : Prop :=
  ∀ (b : Block) (h v : Word12) (x y : Axis) (dx dy A B : Int),
    x = axisOf b.cx b.minx b.maxx → y = axisOf b.cy b.miny b.maxy → dx = h.int - x.mid → dy = v.int - y.mid →
    A = clampInt dx (-x.divisor) x.divisor ^ 2 * y.divisor ^ 2 →
    B = clampInt dy (-y.divisor) y.divisor ^ 2 * x.divisor ^ 2 →
      (-4095 ≤ x.lo + x.hi ∧ x.lo + x.hi ≤ 12285) ∧ (-4095 ≤ y.lo + y.hi ∧ y.lo + y.hi ≤ 12285) ∧
      (-2048 ≤ x.mid ∧ x.mid ≤ 6142) ∧ (-2048 ≤ y.mid ∧ y.mid ≤ 6142) ∧
      (-6142 ≤ dx ∧ dx ≤ 6143) ∧ (-6142 ≤ dy ∧ dy ≤ 6143) ∧
      dx ^ 2 + dy ^ 2 ≤ 75472898 ∧ dx ^ 2 + dy ^ 2 < 2 ^ 27 ∧ (b.dz.toNat : Int) ^ 2 ≤ 65025 ∧
      (0 < x.divisor → 1 ≤ x.divisor ∧ x.divisor ≤ 6141) ∧ (0 < y.divisor → 1 ≤ y.divisor ∧ y.divisor ≤ 6141) ∧
      (0 < x.divisor → 0 < y.divisor →
        (0 ≤ A ∧ A ≤ 6141 ^ 4 ∧ 3 * A < 2 ^ 52) ∧ (0 ≤ B ∧ B ≤ 6141 ^ 4 ∧ 3 * B < 2 ^ 52))

/-! ### Control (44_control.md) -/

/-- R77, R200: READ_STATE answers OK in every state with the snapshot of every register, field by field, and writes
nothing. -/
def Obligations.ReadStateReturnsEveryRegister : Prop :=
  ∀ s : State, ∃ w : BitVec 96,
    exec .readState s = .next { s with responses := s.responses ++ [⟨.ok, .snapshot w⟩] } ∧
    w.extractLsb' 0 4 = s.seq ∧
    w.extractLsb' 4 2 = (match s.side with | .left => 0b00#2 | .right => 0b01#2 | .unset => 0b11#2) ∧
    w.extractLsb' 6 2 =
      (match s.calState with | .empty => 0b00#2 | .needFactory => 0b01#2 | .loaded => 0b10#2 | .locked => 0b11#2) ∧
    w.extractLsb' 8 1 = (if s.flashPend then 1#1 else 0#1) ∧ w.extractLsb' 9 5 = s.flashSize ∧
    w.extractLsb' 14 8 = s.dz ∧ w.extractLsb' 22 12 = s.cx ∧ w.extractLsb' 34 12 = s.cy ∧
    w.extractLsb' 46 12 = s.minx ∧ w.extractLsb' 58 12 = s.miny ∧ w.extractLsb' 70 12 = s.maxx ∧
    w.extractLsb' 82 12 = s.maxy ∧ w.extractLsb' 94 2 = 0#2

/-- R20, R77: the snapshot determines the registers: two instances with the same port and the same snapshot are the
same. -/
def Obligations.SnapshotDeterminesTheRegisters : Prop :=
  ∀ b c : Block, b.stream = c.stream → b.responses = c.responses → snapWord b = snapWord c → b = c

/-- R201, R241: SESSION_CLEAR answers OK in every state and leaves every register as power-on reset does, but SEQ, which
keeps its value. -/
def Obligations.SessionClearKeepsOnlySeq : Prop :=
  ∀ s : State, ∃ t : State, exec .sessionClear s = .next t ∧
    t.toBlock = { Block.reset s.seq with stream := s.stream, responses := s.responses ++ [⟨.ok, .none⟩] } ∧
    t.sharing = s.sharing ∧ t.peers = s.peers ∧ t.turns = s.turns

/-- R202: the four reserved rows answer ILLEGAL_COMMAND in every state and change nothing; SEQ is not advanced. -/
def Obligations.ReservedRowsAnswerIllegalCommand : Prop :=
  ∀ (s : State) (op : BitVec 4) (cmd : Byte) (i : Instr),
    (i = .reservedOp0 ∨ i = .reservedOpF ∨ i = .reservedRo op ∨ i = .reservedHi cmd) →
    exec i s = .next { s with responses := s.responses ++ [⟨.illegalCommand, .none⟩] }

/-- R255: the five frame kinds of the wire are refused in every state, each under its own name: the block never sends or
receives on the transport. That the rows are refused is DEDUCED (log entry 8). -/
def Obligations.WireFramesAreRefused : Prop :=
  ∀ (s : State) (f : List Byte),
    exec (.wireOutSubcmd f) s = .refused (.transportFrame "WIRE_OUT_SUBCMD") ∧
    exec (.wireOutRumble f) s = .refused (.transportFrame "WIRE_OUT_RUMBLE") ∧
    exec (.wireInStdReply f) s = .refused (.transportFrame "WIRE_IN_STD_REPLY") ∧
    exec (.wireInStdFull f) s = .refused (.transportFrame "WIRE_IN_STD_FULL") ∧
    exec (.wireInNfcIr f) s = .refused (.transportFrame "WIRE_IN_NFC_IR")

/-! ### Reset and the invariant (10_state.md R32) -/

/-- R240: power-on reset leaves every register of every instance at its reset value; SEQ is the SEQ_INIT of the
instance, whatever that is (log entry 4). -/
def Obligations.ResetLeavesTheResetValues : Prop :=
  State.reset.seq = Config.seqInit 0 ∧
  (∀ (k : Nat) (b : Block), State.reset.peers[k]? = some b → b.seq = Config.seqInit (k + 1)) ∧
  ∀ b : Block, (b = State.reset.toBlock ∨ b ∈ State.reset.peers) →
    b.side = .unset ∧ b.calState = .empty ∧ b.cx = 0#12 ∧ b.cy = 0#12 ∧ b.minx = 0#12 ∧ b.miny = 0#12 ∧
      b.maxx = 0#12 ∧ b.maxy = 0#12 ∧ b.dz = 0#8 ∧ b.flashPend = false ∧ b.flashSize = 0#5

/-- The invariant holds at reset. -/
def Obligations.InvariantHoldsAtReset : Prop := State.reset.Inv

/-- R20, R22, R24, R25, R27: every step keeps the invariant, in every instance. -/
def Obligations.StepKeepsTheInvariant : Prop :=
  ∀ s t : State, s.Inv → step s = .next t → t.Inv

/-! ### Instances (10_state.md R31, 60_exceptions.md R220) -/

/-- R49, R220: a command touches nothing of the other instances, of the parameter SEQ_SHARING, of the order in which the
hosts issue, or of the bytes still at the port. -/
def Obligations.CommandTouchesOnlyItsInstance : Prop :=
  ∀ (i : Instr) (s t : State), exec i s = .next t →
    t.peers = s.peers ∧ t.sharing = s.sharing ∧ t.turns = s.turns ∧ t.stream = s.stream

/-- R31, R220 under PER_INSTANCE: a step of another instance runs its next command on its own registers and its own
counter, and every instance not served keeps all its registers. -/
def Obligations.PerInstanceStepIsIsolated : Prop :=
  ∀ (s : State) (k : Nat) (ts : List Turn) (b : Block) (i : Instr) (rest : List Byte),
    s.sharing = .perInstance → s.turns = .peer k :: ts → s.peers[k]? = some b →
    decode b.stream = .ok (i, rest) →
    ∃ t : State, step s = .next t ∧
      exec i { toBlock := { b with stream := rest }, sharing := .perInstance,
               peers := s.peers.set k s.toBlock, turns := ts } = .next t ∧
      t.peers[k]? = some s.toBlock ∧ (∀ j, j ≠ k → t.peers[j]? = s.peers[j]?)

/-- R31, R49 under SHARED: over any run and any interleaving of the instances, the one counter is its start value plus
the number of frames all instances have built, modulo 16. -/
def Obligations.SharedSeqCountsAllFrames : Prop :=
  ∀ (n : Nat) (s t : State), s.sharing = .shared → Host.Core.run core n s = .next t →
    s.totalFrames ≤ t.totalFrames ∧
      t.seq.toNat = (s.seq.toNat + (t.totalFrames - s.totalFrames)) % 16

/-! ### Errors (00_scope.md R10, 60_exceptions.md R211, R212) -/

/-- R10, R211, R212: a command whose status is no error succeeded (OK or NEED_FACTORY). One that ends in an error hands
back no result and leaves every register but FLASH_PEND, which only NACK and TIMEOUT change; a dropped outcome leaves
that too. That `isError` takes in DISCARDED follows R10's words where R65 and R211 call it no error (log entry 16). -/
def Obligations.ErrorsLeaveTheRegisters : Prop :=
  ∀ (i : Instr) (s t : State) (st : Status) (r : Result),
    exec i s = .next t → t.responses = s.responses ++ [⟨st, r⟩] →
      (st.isError = false → st = .ok ∨ (st = .needFactory ∧ r = .none)) ∧
      (st.isError = true →
        r = .none ∧ t = { s with flashPend := t.flashPend, responses := t.responses } ∧
        (t.flashPend ≠ s.flashPend → st = .nack ∨ st = .timeout) ∧
        (st.kind = .dropped → st = .discarded ∧ t.flashPend = s.flashPend))
end

