-- ==== Sys2Proof/Laws/Classifier.lean ====
section
/-! SUPPORT. The classifier in closed form over the registers (43_calibration.md R171 to R178). -/

namespace Sys2Proof.Machine

/-- The centre of an axis is the calibrated centre moved by half the difference of the two offsets, rounded down. -/
theorem axisOf_mid (c lo hi : Word12) :
    (axisOf c lo hi).mid = (c.toNat : Int) + ((hi.toNat : Int) - lo.toNat) / 2 := by
  simp only [axisOf, Axis.mid, Word12.int]
  omega

/-- An axis has no proper range exactly when both its offsets are 0. -/
theorem axisOf_empty (c lo hi : Word12) :
    (axisOf c lo hi).hi ≤ (axisOf c lo hi).lo ↔ lo = 0#12 ∧ hi = 0#12 := by
  have zero (w : Word12) : w = 0#12 ↔ w.toNat = 0 := by
    constructor
    · rintro rfl
      rfl
    · intro h
      exact BitVec.eq_of_toNat_eq (by simpa using h)
  rw [zero, zero]
  simp only [axisOf, Word12.int]
  omega

/-- The sector step answers one of the eight directions. -/
theorem sector_proper (cx cy divX divY : Int) :
    sector cx cy divX divY ≠ .invalid ∧ sector cx cy divX divY ≠ .center := by
  unfold sector
  dsimp only
  split_ifs <;> simp

/-- The classifier over the registers: the range test, the deadzone test, the divisor test, the sector. -/
theorem classify_eq (b : Block) (h v : Word12) (midx midy : Int)
    (hx : midx = (b.cx.toNat : Int) + ((b.maxx.toNat : Int) - b.minx.toNat) / 2)
    (hy : midy = (b.cy.toNat : Int) + ((b.maxy.toNat : Int) - b.miny.toNat) / 2) :
    classify b h v =
      if (b.minx = 0#12 ∧ b.maxx = 0#12) ∨ (b.miny = 0#12 ∧ b.maxy = 0#12) then .invalid
      else if ((h.toNat : Int) - midx) ^ 2 + ((v.toNat : Int) - midy) ^ 2 ≤ (b.dz.toNat : Int) ^ 2 then .center
      else if midx - 1 ≤ 0 ∨ midy - 1 ≤ 0 then .invalid
      else sector (clampInt (h.toNat - midx) (-(midx - 1)) (midx - 1))
        (clampInt (v.toNat - midy) (-(midy - 1)) (midy - 1)) (midx - 1) (midy - 1) := by
  have ex : (axisOf b.cx b.minx b.maxx).mid = midx := by rw [axisOf_mid, hx]
  have ey : (axisOf b.cy b.miny b.maxy).mid = midy := by rw [axisOf_mid, hy]
  unfold classify classifyAxes
  simp only [Axis.divisor, ex, ey, axisOf_empty, Word12.int, ← pow_two]

end Sys2Proof.Machine
end

