-- ==== Sys2Proof/Laws/Words.lean ====
section
/-! SUPPORT. The fields of a word built from `fieldAt`: which bits a field fills, and each field of the result words. -/

namespace Sys2Proof

/-- The bits of a placed field. -/
theorem fieldAt_getLsbD (w lo : Nat) {n : Nat} (x : BitVec n) (i : Nat) :
    (fieldAt w lo x).getLsbD i = (decide (i < w) && decide (lo ≤ i) && x.getLsbD (i - lo)) := by
  unfold fieldAt
  rw [BitVec.getLsbD_shiftLeft, BitVec.getLsbD_setWidth]
  by_cases h1 : i < w
  · by_cases h2 : i < lo
    · simp [h1, h2, Nat.not_le.mpr h2]
    · simp [h1, h2, Nat.not_lt.mp h2]
      omega
  · simp [h1]

/-- Extracting a field where it was placed gives it back. -/
theorem fieldAt_extract_same (w lo : Nat) {n : Nat} (x : BitVec n) (h : lo + n ≤ w) :
    (fieldAt w lo x).extractLsb' lo n = x := by
  apply BitVec.eq_of_getLsbD_eq
  intro i hi
  rw [BitVec.getLsbD_extractLsb', fieldAt_getLsbD]
  simp only [hi, decide_true, Bool.true_and, Nat.add_sub_cancel_left]
  simp [show lo + i < w by omega]

/-- Extracting bits a field does not reach gives zeros. -/
theorem fieldAt_extract_other (w lo : Nat) {n : Nat} (x : BitVec n) (at' len : Nat)
    (h : at' + len ≤ lo ∨ lo + n ≤ at') : (fieldAt w lo x).extractLsb' at' len = 0#len := by
  apply BitVec.eq_of_getLsbD_eq
  intro i hi
  rw [BitVec.getLsbD_extractLsb', fieldAt_getLsbD, BitVec.getLsbD_zero]
  rcases h with h | h
  · simp [show ¬ lo ≤ at' + i by omega]
  · rw [BitVec.getLsbD_of_ge x _ (show n ≤ at' + i - lo by omega)]
    simp

/-- Extraction distributes over the union of fields. -/
theorem extract_or {w : Nat} (x y : BitVec w) (at' len : Nat) :
    (x ||| y).extractLsb' at' len = x.extractLsb' at' len ||| y.extractLsb' at' len := by
  apply BitVec.eq_of_getLsbD_eq
  intro i _
  simp only [BitVec.getLsbD_extractLsb', BitVec.getLsbD_or, Bool.and_or_distrib_left]

/-- The number a placed field stands for, when it is not cut off at the top. -/
theorem fieldAt_toNat (w lo : Nat) {n : Nat} (x : BitVec n) (h : x.toNat * 2 ^ lo < 2 ^ w) :
    (fieldAt w lo x).toNat = x.toNat * 2 ^ lo := by
  have hx : x.toNat < 2 ^ w := lt_of_le_of_lt (Nat.le_mul_of_pos_right _ (by positivity)) h
  simp only [fieldAt, BitVec.toNat_shiftLeft, BitVec.toNat_setWidth, Nat.shiftLeft_eq,
    Nat.mod_eq_of_lt hx, Nat.mod_eq_of_lt h]

/-- A field placed above all bits of `y` adds to it. -/
theorem or_fieldAt_toNat {w : Nat} (lo : Nat) {n : Nat} (y : BitVec w) (x : BitVec n)
    (hy : y.toNat < 2 ^ lo) (h : x.toNat * 2 ^ lo < 2 ^ w) :
    (y ||| fieldAt w lo x).toNat = y.toNat + x.toNat * 2 ^ lo := by
  rw [BitVec.toNat_or, fieldAt_toNat w lo x h, Nat.or_comm, Nat.mul_comm, ← Nat.two_pow_add_eq_or_of_lt hy,
    Nat.add_comm]

/-- The low nibble of a byte as a number. -/
theorem lowNibble_toNat (b : Byte) : (b &&& 0x0F#8).toNat = b.toNat % 16 := by
  rw [BitVec.toNat_and]
  exact Nat.and_two_pow_sub_one_eq_mod b.toNat 4

/-- The high nibble of a byte as a number. -/
theorem highNibble_toNat (b : Byte) : (b >>> 4).toNat = b.toNat / 16 := by
  rw [BitVec.toNat_ushiftRight, Nat.shiftRight_eq_div_pow]

end Sys2Proof

namespace Sys2Proof.Machine

/-! ### The DeviceStatus word (30_encoding.md R76) -/

@[simp] theorem DeviceStatus.word_rid (d : DeviceStatus) : d.word.extractLsb' 0 8 = d.rid := by
  simp (disch := omega) only [DeviceStatus.word, extract_or, fieldAt_extract_same, fieldAt_extract_other, BitVec.or_zero]

@[simp] theorem DeviceStatus.word_bat (d : DeviceStatus) : d.word.extractLsb' 8 3 = d.bat := by
  simp (disch := omega) only [DeviceStatus.word, extract_or, fieldAt_extract_same, fieldAt_extract_other, BitVec.or_zero,
    BitVec.zero_or]

@[simp] theorem DeviceStatus.word_conn (d : DeviceStatus) : d.word.extractLsb' 11 2 = d.conn := by
  simp (disch := omega) only [DeviceStatus.word, extract_or, fieldAt_extract_same, fieldAt_extract_other, BitVec.or_zero,
    BitVec.zero_or]

@[simp] theorem DeviceStatus.word_side (d : DeviceStatus) : d.word.extractLsb' 13 1 = d.side := by
  simp (disch := omega) only [DeviceStatus.word, extract_or, fieldAt_extract_same, fieldAt_extract_other, BitVec.or_zero,
    BitVec.zero_or]

@[simp] theorem DeviceStatus.word_btn (d : DeviceStatus) : d.word.extractLsb' 14 12 = d.btn := by
  simp (disch := omega) only [DeviceStatus.word, extract_or, fieldAt_extract_same, fieldAt_extract_other, BitVec.or_zero,
    BitVec.zero_or]

@[simp] theorem DeviceStatus.word_h (d : DeviceStatus) : d.word.extractLsb' 26 12 = d.h := by
  simp (disch := omega) only [DeviceStatus.word, extract_or, fieldAt_extract_same, fieldAt_extract_other, BitVec.or_zero,
    BitVec.zero_or]

@[simp] theorem DeviceStatus.word_v (d : DeviceStatus) : d.word.extractLsb' 38 12 = d.v := by
  simp (disch := omega) only [DeviceStatus.word, extract_or, fieldAt_extract_same, fieldAt_extract_other, BitVec.or_zero,
    BitVec.zero_or]

@[simp] theorem DeviceStatus.word_dir (d : DeviceStatus) : d.word.extractLsb' 50 4 = d.dir := by
  simp (disch := omega) only [DeviceStatus.word, extract_or, fieldAt_extract_same, fieldAt_extract_other, BitVec.or_zero,
    BitVec.zero_or]

@[simp] theorem DeviceStatus.word_top (d : DeviceStatus) : d.word.extractLsb' 54 10 = 0#10 := by
  simp (disch := omega) only [DeviceStatus.word, extract_or, fieldAt_extract_other, BitVec.or_zero]

/-! ### The snapshot word (30_encoding.md R77) -/

@[simp] theorem snapWord_seq (b : Block) : (snapWord b).extractLsb' 0 4 = b.seq := by
  simp (disch := omega) only [snapWord, extract_or, fieldAt_extract_same, fieldAt_extract_other, BitVec.or_zero]

@[simp] theorem snapWord_side (b : Block) : (snapWord b).extractLsb' 4 2 = b.side.code := by
  simp (disch := omega) only [snapWord, extract_or, fieldAt_extract_same, fieldAt_extract_other, BitVec.or_zero,
    BitVec.zero_or]

@[simp] theorem snapWord_calState (b : Block) : (snapWord b).extractLsb' 6 2 = b.calState.code := by
  simp (disch := omega) only [snapWord, extract_or, fieldAt_extract_same, fieldAt_extract_other, BitVec.or_zero,
    BitVec.zero_or]

@[simp] theorem snapWord_flashPend (b : Block) : (snapWord b).extractLsb' 8 1 = BitVec.ofBool b.flashPend := by
  simp (disch := omega) only [snapWord, extract_or, fieldAt_extract_same, fieldAt_extract_other, BitVec.or_zero,
    BitVec.zero_or]

@[simp] theorem snapWord_flashSize (b : Block) : (snapWord b).extractLsb' 9 5 = b.flashSize := by
  simp (disch := omega) only [snapWord, extract_or, fieldAt_extract_same, fieldAt_extract_other, BitVec.or_zero,
    BitVec.zero_or]

@[simp] theorem snapWord_dz (b : Block) : (snapWord b).extractLsb' 14 8 = b.dz := by
  simp (disch := omega) only [snapWord, extract_or, fieldAt_extract_same, fieldAt_extract_other, BitVec.or_zero,
    BitVec.zero_or]

@[simp] theorem snapWord_cx (b : Block) : (snapWord b).extractLsb' 22 12 = b.cx := by
  simp (disch := omega) only [snapWord, extract_or, fieldAt_extract_same, fieldAt_extract_other, BitVec.or_zero,
    BitVec.zero_or]

@[simp] theorem snapWord_cy (b : Block) : (snapWord b).extractLsb' 34 12 = b.cy := by
  simp (disch := omega) only [snapWord, extract_or, fieldAt_extract_same, fieldAt_extract_other, BitVec.or_zero,
    BitVec.zero_or]

@[simp] theorem snapWord_minx (b : Block) : (snapWord b).extractLsb' 46 12 = b.minx := by
  simp (disch := omega) only [snapWord, extract_or, fieldAt_extract_same, fieldAt_extract_other, BitVec.or_zero,
    BitVec.zero_or]

@[simp] theorem snapWord_miny (b : Block) : (snapWord b).extractLsb' 58 12 = b.miny := by
  simp (disch := omega) only [snapWord, extract_or, fieldAt_extract_same, fieldAt_extract_other, BitVec.or_zero,
    BitVec.zero_or]

@[simp] theorem snapWord_maxx (b : Block) : (snapWord b).extractLsb' 70 12 = b.maxx := by
  simp (disch := omega) only [snapWord, extract_or, fieldAt_extract_same, fieldAt_extract_other, BitVec.or_zero,
    BitVec.zero_or]

@[simp] theorem snapWord_maxy (b : Block) : (snapWord b).extractLsb' 82 12 = b.maxy := by
  simp (disch := omega) only [snapWord, extract_or, fieldAt_extract_same, fieldAt_extract_other, BitVec.or_zero,
    BitVec.zero_or]

@[simp] theorem snapWord_top (b : Block) : (snapWord b).extractLsb' 94 2 = 0#2 := by
  simp (disch := omega) only [snapWord, extract_or, fieldAt_extract_other, BitVec.or_zero]

/-! ### The calibration word (30_encoding.md R82) -/

@[simp] theorem CalBank.word_cx (c : CalBank) : c.word.extractLsb' 0 12 = c.cx := by
  simp (disch := omega) only [CalBank.word, extract_or, fieldAt_extract_same, fieldAt_extract_other, BitVec.or_zero]

@[simp] theorem CalBank.word_cy (c : CalBank) : c.word.extractLsb' 12 12 = c.cy := by
  simp (disch := omega) only [CalBank.word, extract_or, fieldAt_extract_same, fieldAt_extract_other, BitVec.or_zero,
    BitVec.zero_or]

@[simp] theorem CalBank.word_minx (c : CalBank) : c.word.extractLsb' 24 12 = c.minx := by
  simp (disch := omega) only [CalBank.word, extract_or, fieldAt_extract_same, fieldAt_extract_other, BitVec.or_zero,
    BitVec.zero_or]

@[simp] theorem CalBank.word_miny (c : CalBank) : c.word.extractLsb' 36 12 = c.miny := by
  simp (disch := omega) only [CalBank.word, extract_or, fieldAt_extract_same, fieldAt_extract_other, BitVec.or_zero,
    BitVec.zero_or]

@[simp] theorem CalBank.word_maxx (c : CalBank) : c.word.extractLsb' 48 12 = c.maxx := by
  simp (disch := omega) only [CalBank.word, extract_or, fieldAt_extract_same, fieldAt_extract_other, BitVec.or_zero,
    BitVec.zero_or]

@[simp] theorem CalBank.word_maxy (c : CalBank) : c.word.extractLsb' 60 12 = c.maxy := by
  simp (disch := omega) only [CalBank.word, extract_or, fieldAt_extract_same, fieldAt_extract_other, BitVec.or_zero,
    BitVec.zero_or]

end Sys2Proof.Machine
end

