-- ==== Sys2Proof/Laws/Decode.lean ====
section
/-! SUPPORT. What the decoder's readers do on encoded operands, and the numbers of packed and little-endian fields. -/

namespace Sys2Proof

/-! ### Counted byte sequences -/

/-- A length byte stands for the length, when the sequence fits it. -/
theorem lengthByte_toNat (bytes : List Byte) (h : lengthFits bytes = true) :
    (BitVec.ofNat 8 bytes.length).toNat = bytes.length := by
  simp only [lengthFits, decide_eq_true_eq] at h
  rw [BitVec.toNat_ofNat]
  omega

/-- Taking as many bytes as a sequence has gives the sequence. -/
theorem takeBytes_append (bytes rest : List Byte) :
    takeBytes bytes.length (bytes ++ rest) = some (bytes, rest) := by
  simp [takeBytes]

/-- What taking `n` bytes gives: `n` bytes from the front. -/
theorem takeBytes_eq_some (n : Nat) (bytes front rest : List Byte) :
    takeBytes n bytes = some (front, rest) ↔ front.length = n ∧ bytes = front ++ rest := by
  unfold takeBytes
  constructor
  · split
    · rename_i h
      simp only [Option.some.injEq, Prod.mk.injEq]
      rintro ⟨rfl, rfl⟩
      exact ⟨by rw [List.length_take]; omega, (List.take_append_drop n bytes).symm⟩
    · simp
  · rintro ⟨rfl, rfl⟩
    simp

/-- A counted sequence reads back. -/
theorem takeCounted_counted (bytes rest : List Byte) (h : lengthFits bytes = true) :
    takeCounted (counted bytes ++ rest) = some (bytes, rest) := by
  simp only [counted, List.cons_append, takeCounted, lengthByte_toNat bytes h, takeBytes_append]

/-- What reading a counted sequence gives: a sequence that fits a length byte, and the bytes were its encoding. -/
theorem takeCounted_eq_some (bytes front rest : List Byte) :
    takeCounted bytes = some (front, rest) ↔ lengthFits front = true ∧ bytes = counted front ++ rest := by
  constructor
  · intro h
    cases bytes with
    | nil => simp [takeCounted] at h
    | cons len tail =>
      obtain ⟨hl, rfl⟩ := (takeBytes_eq_some _ _ _ _).1 h
      have hlen := len.isLt
      refine ⟨by simp only [lengthFits, decide_eq_true_eq]; omega, ?_⟩
      simp [counted, hl]
  · rintro ⟨h, rfl⟩
    exact takeCounted_counted front rest h

/-- RAW reads back. -/
theorem takeRaw9_bytes (r : Raw9) (rest : List Byte) : takeRaw9 (r.bytes ++ rest) = some (r, rest) := rfl

/-- PARAMS reads back. -/
theorem takeParams5_bytes (p : Params5) (rest : List Byte) : takeParams5 (p.bytes ++ rest) = some (p, rest) := rfl

/-- What reading RAW gives. -/
theorem takeRaw9_eq_some (bytes rest : List Byte) (r : Raw9) :
    takeRaw9 bytes = some (r, rest) ↔ bytes = r.bytes ++ rest := by
  constructor
  · intro h
    unfold takeRaw9 at h
    split at h
    · simp only [Option.some.injEq, Prod.mk.injEq] at h
      obtain ⟨rfl, rfl⟩ := h
      rfl
    · simp at h
  · rintro rfl
    rfl

/-- What reading PARAMS gives. -/
theorem takeParams5_eq_some (bytes rest : List Byte) (p : Params5) :
    takeParams5 bytes = some (p, rest) ↔ bytes = p.bytes ++ rest := by
  constructor
  · intro h
    unfold takeParams5 at h
    split at h
    · simp only [Option.some.injEq, Prod.mk.injEq] at h
      obtain ⟨rfl, rfl⟩ := h
      rfl
    · simp at h
  · rintro rfl
    rfl

/-! ### Little-endian operands -/

/-- Byte `n` of a 32-bit value as a number. -/
theorem byteOf32_toNat (w : BitVec 32) (n : Nat) : (byteOf32 w n).toNat = w.toNat / 2 ^ (8 * n) % 256 := by
  simp only [byteOf32, BitVec.extractLsb'_toNat, Nat.shiftRight_eq_div_pow]

/-- Byte `n` of a 16-bit value as a number. -/
theorem byteOf16_toNat (w : BitVec 16) (n : Nat) : (byteOf16 w n).toNat = w.toNat / 2 ^ (8 * n) % 256 := by
  simp only [byteOf16, BitVec.extractLsb'_toNat, Nat.shiftRight_eq_div_pow]

/-- A 16-bit operand as a number. -/
theorem le16_toNat (a b : Byte) : (le16 a b).toNat = a.toNat + b.toNat * 2 ^ 8 := by
  have h0 := a.isLt
  have h1 := b.isLt
  have f0 := fieldAt_toNat 16 0 a (by omega)
  rw [le16, or_fieldAt_toNat 8 (fieldAt 16 0 a) b (by omega) (by omega), f0]
  omega

/-- A 32-bit operand as a number. -/
theorem le32_toNat (a b c d : Byte) :
    (le32 a b c d).toNat = a.toNat + b.toNat * 2 ^ 8 + c.toNat * 2 ^ 16 + d.toNat * 2 ^ 24 := by
  have h0 := a.isLt
  have h1 := b.isLt
  have h2 := c.isLt
  have h3 := d.isLt
  have f0 := fieldAt_toNat 32 0 a (by omega)
  have f1 := or_fieldAt_toNat 8 (fieldAt 32 0 a) b (by omega) (by omega)
  have f2 := or_fieldAt_toNat 16 (fieldAt 32 0 a ||| fieldAt 32 8 b) c (by omega) (by omega)
  have f3 := or_fieldAt_toNat 24 (fieldAt 32 0 a ||| fieldAt 32 8 b ||| fieldAt 32 16 c) d (by omega) (by omega)
  rw [le32, f3, f2, f1, f0]
  omega

/-- A 16-bit operand reads back from its bytes. -/
theorem le16_bytes (w : BitVec 16) : le16 (byteOf16 w 0) (byteOf16 w 1) = w := by
  apply BitVec.eq_of_toNat_eq
  have := w.isLt
  rw [le16_toNat, byteOf16_toNat, byteOf16_toNat]
  omega

/-- A 32-bit operand reads back from its bytes. -/
theorem le32_bytes (w : BitVec 32) :
    le32 (byteOf32 w 0) (byteOf32 w 1) (byteOf32 w 2) (byteOf32 w 3) = w := by
  apply BitVec.eq_of_toNat_eq
  have := w.isLt
  rw [le32_toNat, byteOf32_toNat, byteOf32_toNat, byteOf32_toNat, byteOf32_toNat]
  omega

/-! ### Packed pairs -/

/-- The low nibble of a 12-bit value as a number. -/
theorem word12_lowNibble_toNat (x : Word12) : (x &&& 0x0F#12).toNat = x.toNat % 16 := by
  rw [BitVec.toNat_and]
  exact Nat.and_two_pow_sub_one_eq_mod x.toNat 4

/-- The low byte of a 12-bit value as a number. -/
theorem word12_lowByte_toNat (x : Word12) : (x &&& 0xFF#12).toNat = x.toNat % 256 := by
  rw [BitVec.toNat_and]
  exact Nat.and_two_pow_sub_one_eq_mod x.toNat 8

/-- Packed byte 0 as a number. -/
theorem packByte0_toNat (x : Word12) : (packByte0 x).toNat = x.toNat % 256 := by
  rw [packByte0, BitVec.toNat_setWidth, word12_lowByte_toNat]
  omega

/-- Packed byte 1 as a number. -/
theorem packByte1_toNat (x y : Word12) : (packByte1 x y).toNat = x.toNat / 256 + 16 * (y.toNat % 16) := by
  have hx := x.isLt
  have e1 : ((x >>> 8) &&& 0x0F#12).toNat = x.toNat / 256 := by
    rw [word12_lowNibble_toNat, BitVec.toNat_ushiftRight, Nat.shiftRight_eq_div_pow]
    omega
  have e2 := word12_lowNibble_toNat y
  have f := fieldAt_toNat 8 0 ((x >>> 8) &&& 0x0F#12) (by omega)
  rw [packByte1, or_fieldAt_toNat 4 _ _ (by omega) (by omega)]
  omega

/-- Packed byte 2 as a number. -/
theorem packByte2_toNat (y : Word12) : (packByte2 y).toNat = y.toNat / 16 := by
  have := y.isLt
  rw [packByte2, BitVec.toNat_setWidth, word12_lowByte_toNat, BitVec.toNat_ushiftRight, Nat.shiftRight_eq_div_pow]
  omega

/-! ### Descriptors -/

/-- A descriptor byte below 0x10 is its OP with RO = 0 and CMD[7:5] = 0. -/
theorem decodeDescriptor_op (op : Nat) (h : op < 16) (rest : List Byte) :
    decodeDescriptor (BitVec.ofNat 8 op) rest = decodeOp op rest := by
  have key : ∀ op : Fin 16, (BitVec.ofNat 8 op.val).extractLsb' 5 3 = 0#3 ∧
      (BitVec.ofNat 8 op.val).getLsbD 4 = false ∧
      ((BitVec.ofNat 8 op.val).extractLsb' 0 4).toNat = op.val := by decide
  obtain ⟨h1, h2, h3⟩ := key ⟨op, h⟩
  simp only at h1 h2 h3
  rw [decodeDescriptor, if_neg (not_not.2 h1), h2, h3]
  rfl

/-- A descriptor with RO = 1 and CMD[7:5] = 0 and an OP other than 1 is reserved. -/
theorem decodeDescriptor_reservedRo (op : BitVec 4) (h : op ≠ 1#4) (rest : List Byte) :
    decodeDescriptor (0x10#8 ||| op.setWidth 8) rest = .ok (.reservedRo op, rest) := by
  have key : ∀ op : BitVec 4, (0x10#8 ||| op.setWidth 8).extractLsb' 5 3 = 0#3 ∧
      (0x10#8 ||| op.setWidth 8).getLsbD 4 = true ∧ (0x10#8 ||| op.setWidth 8).extractLsb' 0 4 = op := by decide
  obtain ⟨h1, h2, h3⟩ := key op
  rw [decodeDescriptor, if_neg (not_not.2 h1), h2, h3, if_pos rfl, if_neg h]

/-- Every descriptor byte is one of three kinds: CMD[7:5] is not zero; RO = 1 with an OP; RO = 0 with an OP. -/
theorem descriptor_cases (cmd : Byte) :
    cmd.extractLsb' 5 3 ≠ 0#3 ∨ (∃ op : BitVec 4, cmd = 0x10#8 ||| op.setWidth 8) ∨
      ∃ op, op < 16 ∧ cmd = BitVec.ofNat 8 op := by
  by_cases h : cmd.extractLsb' 5 3 = 0#3
  · right
    have hlt : cmd.toNat < 32 := by
      have := congrArg BitVec.toNat h
      rw [BitVec.extractLsb'_toNat, Nat.shiftRight_eq_div_pow] at this
      have hc := cmd.isLt
      simp only [BitVec.toNat_ofNat] at this
      omega
    by_cases h16 : cmd.toNat < 16
    · exact .inr ⟨cmd.toNat, h16, by simp⟩
    · left
      have key : ∀ n : Fin 32, 16 ≤ n.val →
          BitVec.ofNat 8 n.val = 0x10#8 ||| (BitVec.ofNat 4 n.val).setWidth 8 := by decide
      have hk := key ⟨cmd.toNat, hlt⟩ (Nat.le_of_not_lt h16)
      refine ⟨BitVec.ofNat 4 cmd.toNat, ?_⟩
      rw [← hk]
      simp
  · exact .inl h

end Sys2Proof
end

