-- ==== Sys2Proof/Laws/State.lean ====
section
/-! SUPPORT. One lemma per field of State per update, so that no proof unfolds a record update. -/

namespace Sys2Proof.Machine

/-! ### Fields after the sequence counter's advance (40_framer.md R100) -/

@[simp] theorem State.seqAdvance_seq (s : State) : (s.seqAdvance).seq = s.seq + 1#4 := rfl
@[simp] theorem State.seqAdvance_side (s : State) : (s.seqAdvance).side = s.side := rfl
@[simp] theorem State.seqAdvance_calState (s : State) : (s.seqAdvance).calState = s.calState := rfl
@[simp] theorem State.seqAdvance_cx (s : State) : (s.seqAdvance).cx = s.cx := rfl
@[simp] theorem State.seqAdvance_cy (s : State) : (s.seqAdvance).cy = s.cy := rfl
@[simp] theorem State.seqAdvance_minx (s : State) : (s.seqAdvance).minx = s.minx := rfl
@[simp] theorem State.seqAdvance_miny (s : State) : (s.seqAdvance).miny = s.miny := rfl
@[simp] theorem State.seqAdvance_maxx (s : State) : (s.seqAdvance).maxx = s.maxx := rfl
@[simp] theorem State.seqAdvance_maxy (s : State) : (s.seqAdvance).maxy = s.maxy := rfl
@[simp] theorem State.seqAdvance_dz (s : State) : (s.seqAdvance).dz = s.dz := rfl
@[simp] theorem State.seqAdvance_flashPend (s : State) : (s.seqAdvance).flashPend = s.flashPend := rfl
@[simp] theorem State.seqAdvance_flashSize (s : State) : (s.seqAdvance).flashSize = s.flashSize := rfl
@[simp] theorem State.seqAdvance_stream (s : State) : (s.seqAdvance).stream = s.stream := rfl
@[simp] theorem State.seqAdvance_responses (s : State) : (s.seqAdvance).responses = s.responses := rfl
@[simp] theorem State.seqAdvance_sharing (s : State) : (s.seqAdvance).sharing = s.sharing := rfl
@[simp] theorem State.seqAdvance_peers (s : State) : (s.seqAdvance).peers = s.peers := rfl
@[simp] theorem State.seqAdvance_turns (s : State) : (s.seqAdvance).turns = s.turns := rfl

/-! ### Fields after loading the bank (10_state.md R24) -/

@[simp] theorem State.loadBank_seq (s : State) (c : CalBank) : (s.loadBank c).seq = s.seq := rfl
@[simp] theorem State.loadBank_side (s : State) (c : CalBank) : (s.loadBank c).side = s.side := rfl
@[simp] theorem State.loadBank_calState (s : State) (c : CalBank) : (s.loadBank c).calState = .loaded := rfl
@[simp] theorem State.loadBank_cx (s : State) (c : CalBank) : (s.loadBank c).cx = c.cx := rfl
@[simp] theorem State.loadBank_cy (s : State) (c : CalBank) : (s.loadBank c).cy = c.cy := rfl
@[simp] theorem State.loadBank_minx (s : State) (c : CalBank) : (s.loadBank c).minx = c.minx := rfl
@[simp] theorem State.loadBank_miny (s : State) (c : CalBank) : (s.loadBank c).miny = c.miny := rfl
@[simp] theorem State.loadBank_maxx (s : State) (c : CalBank) : (s.loadBank c).maxx = c.maxx := rfl
@[simp] theorem State.loadBank_maxy (s : State) (c : CalBank) : (s.loadBank c).maxy = c.maxy := rfl
@[simp] theorem State.loadBank_dz (s : State) (c : CalBank) : (s.loadBank c).dz = s.dz := rfl
@[simp] theorem State.loadBank_flashPend (s : State) (c : CalBank) : (s.loadBank c).flashPend = s.flashPend := rfl
@[simp] theorem State.loadBank_flashSize (s : State) (c : CalBank) : (s.loadBank c).flashSize = s.flashSize := rfl
@[simp] theorem State.loadBank_stream (s : State) (c : CalBank) : (s.loadBank c).stream = s.stream := rfl
@[simp] theorem State.loadBank_responses (s : State) (c : CalBank) : (s.loadBank c).responses = s.responses := rfl
@[simp] theorem State.loadBank_sharing (s : State) (c : CalBank) : (s.loadBank c).sharing = s.sharing := rfl
@[simp] theorem State.loadBank_peers (s : State) (c : CalBank) : (s.loadBank c).peers = s.peers := rfl
@[simp] theorem State.loadBank_turns (s : State) (c : CalBank) : (s.loadBank c).turns = s.turns := rfl

/-! ### Fields after clearing the session (44_control.md R201) -/

@[simp] theorem State.clearSession_seq (s : State) : (s.clearSession).seq = s.seq := rfl
@[simp] theorem State.clearSession_side (s : State) : (s.clearSession).side = .unset := rfl
@[simp] theorem State.clearSession_calState (s : State) : (s.clearSession).calState = .empty := rfl
@[simp] theorem State.clearSession_cx (s : State) : (s.clearSession).cx = 0#12 := rfl
@[simp] theorem State.clearSession_cy (s : State) : (s.clearSession).cy = 0#12 := rfl
@[simp] theorem State.clearSession_minx (s : State) : (s.clearSession).minx = 0#12 := rfl
@[simp] theorem State.clearSession_miny (s : State) : (s.clearSession).miny = 0#12 := rfl
@[simp] theorem State.clearSession_maxx (s : State) : (s.clearSession).maxx = 0#12 := rfl
@[simp] theorem State.clearSession_maxy (s : State) : (s.clearSession).maxy = 0#12 := rfl
@[simp] theorem State.clearSession_dz (s : State) : (s.clearSession).dz = 0#8 := rfl
@[simp] theorem State.clearSession_flashPend (s : State) : (s.clearSession).flashPend = false := rfl
@[simp] theorem State.clearSession_flashSize (s : State) : (s.clearSession).flashSize = 0#5 := rfl
@[simp] theorem State.clearSession_stream (s : State) : (s.clearSession).stream = s.stream := rfl
@[simp] theorem State.clearSession_responses (s : State) : (s.clearSession).responses = s.responses := rfl
@[simp] theorem State.clearSession_sharing (s : State) : (s.clearSession).sharing = s.sharing := rfl
@[simp] theorem State.clearSession_peers (s : State) : (s.clearSession).peers = s.peers := rfl
@[simp] theorem State.clearSession_turns (s : State) : (s.clearSession).turns = s.turns := rfl

/-! ### Fields after presenting bytes at the port -/

@[simp] theorem State.present_seq (s : State) (bytes : List Byte) : (s.present bytes).seq = s.seq := rfl
@[simp] theorem State.present_side (s : State) (bytes : List Byte) : (s.present bytes).side = s.side := rfl
@[simp] theorem State.present_calState (s : State) (bytes : List Byte) : (s.present bytes).calState = s.calState := rfl
@[simp] theorem State.present_cx (s : State) (bytes : List Byte) : (s.present bytes).cx = s.cx := rfl
@[simp] theorem State.present_cy (s : State) (bytes : List Byte) : (s.present bytes).cy = s.cy := rfl
@[simp] theorem State.present_minx (s : State) (bytes : List Byte) : (s.present bytes).minx = s.minx := rfl
@[simp] theorem State.present_miny (s : State) (bytes : List Byte) : (s.present bytes).miny = s.miny := rfl
@[simp] theorem State.present_maxx (s : State) (bytes : List Byte) : (s.present bytes).maxx = s.maxx := rfl
@[simp] theorem State.present_maxy (s : State) (bytes : List Byte) : (s.present bytes).maxy = s.maxy := rfl
@[simp] theorem State.present_dz (s : State) (bytes : List Byte) : (s.present bytes).dz = s.dz := rfl
@[simp] theorem State.present_flashPend (s : State) (bytes : List Byte) : (s.present bytes).flashPend = s.flashPend := rfl
@[simp] theorem State.present_flashSize (s : State) (bytes : List Byte) : (s.present bytes).flashSize = s.flashSize := rfl
@[simp] theorem State.present_stream (s : State) (bytes : List Byte) : (s.present bytes).stream = bytes := rfl
@[simp] theorem State.present_responses (s : State) (bytes : List Byte) : (s.present bytes).responses = s.responses := rfl
@[simp] theorem State.present_sharing (s : State) (bytes : List Byte) : (s.present bytes).sharing = s.sharing := rfl
@[simp] theorem State.present_peers (s : State) (bytes : List Byte) : (s.present bytes).peers = s.peers := rfl
@[simp] theorem State.present_turns (s : State) (bytes : List Byte) : (s.present bytes).turns = [] := rfl

end Sys2Proof.Machine
end

