-- ==== Sys2Proof/Laws/Ops.lean ====
section
/-! SUPPORT. One lemma per shared operation that says everything it can do, so that callers cite it instead of
unfolding it. -/

namespace Sys2Proof.Machine

/-! ### Responding and raising -/

/-- Responding always answers a next state: the same state with one more response. -/
theorem State.respond_eq (s : State) (st : Status) (r : Result) :
    s.respond st r = .next { s with responses := s.responses ++ [⟨st, r⟩] } := rfl

/-- What a response's next state is. -/
@[simp] theorem State.respond_next_iff (s t : State) (st : Status) (r : Result) :
    s.respond st r = .next t ↔ t = { s with responses := s.responses ++ [⟨st, r⟩] } := by
  rw [State.respond_eq, Host.Outcome.next.injEq, eq_comm]

/-- Raising is responding with no result. -/
@[simp] theorem State.raise_eq (s : State) (st : Status) : s.raise st = s.respond st .none := rfl

/-- Emitting a frame is responding OK with it. -/
@[simp] theorem State.emitFrame_eq (s : State) (f : List Byte) : s.emitFrame f = s.respond .ok (.frame f) := rfl

/-! ### Kinds of status -/

/-- The statuses that are no error (00_scope.md R10). -/
theorem Status.isError_eq_false_iff (st : Status) : st.isError = false ↔ st = .ok ∨ st = .needFactory := by
  cases st <;> decide

/-- The one dropped outcome (60_exceptions.md R211). -/
theorem Status.kind_eq_dropped_iff (st : Status) : st.kind = .dropped ↔ st = .discarded := by
  cases st <;> decide

/-! ### Building a subcommand frame -/

/-- A payload that fits is framed and SEQ advances. -/
theorem State.buildSubcmd_fits (s : State) (rumble : Rumble8) (sc : Byte) (pay : List Byte) (h : pay.length ≤ 38) :
    s.buildSubcmd rumble sc pay = s.seqAdvance.respond .ok (.frame (subcmdFrame s.seq rumble sc pay)) := by
  unfold State.buildSubcmd Config.maxPayload
  rw [if_neg (by omega)]
  rfl

/-- A longer payload is rejected and nothing is written. -/
theorem State.buildSubcmd_tooLarge (s : State) (rumble : Rumble8) (sc : Byte) (pay : List Byte)
    (h : 38 < pay.length) : s.buildSubcmd rumble sc pay = s.respond .payloadTooLarge .none := by
  unfold State.buildSubcmd Config.maxPayload
  rw [if_pos h]
  rfl

/-! ### Serving an instance -/

/-- A turn of the served instance changes nothing. -/
@[simp] theorem State.serve_served (s : State) : s.serve .served = s := rfl

/-- A turn of an instance that does not exist changes nothing. -/
theorem State.serve_absent (s : State) (k : Nat) (h : s.peers[k]? = none) : s.serve (.peer k) = s := by
  simp only [State.serve, h]

/-- A turn of another instance: the two change places, and the counter is the shared one or its own. -/
theorem State.serve_present (s : State) (k : Nat) (b : Block) (h : s.peers[k]? = some b) :
    s.serve (.peer k) =
      { s with toBlock := { b with seq := s.incomingSeq b }, peers := s.peers.set k s.toBlock } := by
  simp only [State.serve, h]

/-- Serving changes neither the parameter SEQ_SHARING nor the turns. -/
theorem State.serve_keeps (s : State) (t : Turn) :
    (s.serve t).sharing = s.sharing ∧ (s.serve t).turns = s.turns := by
  cases t with
  | served => exact ⟨rfl, rfl⟩
  | peer k =>
    cases h : s.peers[k]? with
    | none => rw [s.serve_absent k h]; exact ⟨rfl, rfl⟩
    | some b => rw [s.serve_present k b h]; exact ⟨rfl, rfl⟩

/-- With no turn listed the served instance goes on. -/
theorem State.takeTurn_nil (s : State) (h : s.turns = []) : s.takeTurn = s := by
  simp only [State.takeTurn, h]

/-- A listed turn is taken and consumed. -/
theorem State.takeTurn_cons (s : State) (t : Turn) (ts : List Turn) (h : s.turns = t :: ts) :
    s.takeTurn = { s.serve t with turns := ts } := by
  simp only [State.takeTurn, h]

/-- Taking a turn never changes the parameter SEQ_SHARING. -/
@[simp] theorem State.takeTurn_sharing (s : State) : s.takeTurn.sharing = s.sharing := by
  cases h : s.turns with
  | nil => rw [s.takeTurn_nil h]
  | cons t ts => rw [s.takeTurn_cons t ts h]; exact (s.serve_keeps t).1

/-! ### Fetching -/

/-- What a fetch gives: the decoded command, its bytes consumed, nothing else changed. -/
theorem State.fetch_eq_some (s t : State) (i : Instr) :
    s.fetch = some (i, t) ↔
      ∃ rest, Sys2Proof.decode s.stream = .ok (i, rest) ∧ t = { s with stream := rest } := by
  unfold State.fetch
  cases h : Sys2Proof.decode s.stream with
  | error e => simp
  | ok r =>
    obtain ⟨j, rest⟩ := r
    simp only [Option.some.injEq, Prod.mk.injEq, Except.ok.injEq]
    constructor
    · rintro ⟨rfl, rfl⟩
      exact ⟨rest, ⟨rfl, rfl⟩, rfl⟩
    · rintro ⟨rest', ⟨rfl, rfl⟩, rfl⟩
      exact ⟨rfl, rfl⟩

end Sys2Proof.Machine
end

