-- ==== Sys2Proof/Laws/Frames.lean ====
section
/-! SUPPORT. The bytes of the frames the block builds, by their place (30_encoding.md R66, R67). -/

namespace Sys2Proof.Machine

/-- A frame byte inside the frame. -/
theorem frameByte_of_getElem? (frame : List Byte) (n : Nat) (b : Byte) (h : frame[n]? = some b) :
    frameByte frame n = b := by
  simp [frameByte, h]

/-- A byte inside the frame is its frame byte. -/
theorem getElem?_eq_frameByte (frame : List Byte) (n : Nat) (h : n < frame.length) :
    frame[n]? = some (frameByte frame n) := by
  simp [frameByte, h]

/-- The sequence number as a frame byte keeps its value: the upper nibble is 0. -/
theorem seqByte_toNat (q : BitVec 4) : (q.setWidth 8).toNat = q.toNat := by
  have := q.isLt
  rw [BitVec.toNat_setWidth]
  omega

/-- Eleven bytes stand before the payload of a subcommand frame. -/
theorem subcmdFrame_eq (q : BitVec 4) (rb : Rumble8) (sc : Byte) (pay : List Byte) :
    subcmdFrame q rb sc pay =
      ([0x01#8, q.setWidth 8] ++ rb.bytes ++ [sc]) ++ (pay ++ List.replicate (38 - pay.length) 0x00#8) := by
  simp [subcmdFrame, Config.maxPayload, Config.ridOutSubcmd]

/-- A subcommand frame whose payload fits is 49 bytes. -/
theorem subcmdFrame_length (q : BitVec 4) (rb : Rumble8) (sc : Byte) (pay : List Byte) (h : pay.length ≤ 38) :
    (subcmdFrame q rb sc pay).length = 49 := by
  rw [subcmdFrame_eq]
  simp [Rumble8.bytes]
  omega

/-- The payload of a subcommand frame starts at byte 11. -/
theorem subcmdFrame_payload (q : BitVec 4) (rb : Rumble8) (sc : Byte) (pay : List Byte) (k : Nat)
    (h : k < pay.length) : (subcmdFrame q rb sc pay)[11 + k]? = pay[k]? := by
  rw [subcmdFrame_eq, List.getElem?_append_right (by simp [Rumble8.bytes]),
    List.getElem?_append_left (by simp [Rumble8.bytes]; omega)]
  simp [Rumble8.bytes]

/-- After the payload a subcommand frame is zeros. -/
theorem subcmdFrame_padding (q : BitVec 4) (rb : Rumble8) (sc : Byte) (pay : List Byte) (k : Nat)
    (h1 : 11 + pay.length ≤ k) (h2 : k < 49) : (subcmdFrame q rb sc pay)[k]? = some 0x00#8 := by
  have e : ([0x01#8, q.setWidth 8] ++ rb.bytes ++ [sc]).length = 11 := rfl
  rw [subcmdFrame_eq, List.getElem?_append_right (by omega), e, List.getElem?_append_right (by omega),
    List.getElem?_replicate, if_pos (by omega)]

end Sys2Proof.Machine
end

