-- ==== Sys2Proof/Laws/PerInstr.lean ====
section
/-! SUPPORT. The family of statements made per instruction: the encoding of a well-formed instruction is as long as the
column "total length" of 30_encoding.md R62 says (a reserved descriptor one byte, a frame of the wire 49). -/

namespace Sys2Proof.Laws

/-- The encoding of a well-formed instruction has the length the spec gives it. -/
def EncodeLength.Statement (i : Instr) : Prop :=
  i.wellFormed = true → (encode i).length = encodedLength i

/-- A well-formed frame of the wire is 49 bytes. -/
theorem wireFrame_length (rid : Byte) (frame : List Byte) (h : isWireFrame rid frame = true) :
    frame.length = Config.reportLen := by
  simp only [isWireFrame, Bool.and_eq_true, beq_iff_eq] at h
  exact h.1

theorem EncodeLength.encodeSubcmd (subcmd : Byte) (pay : List Byte) : EncodeLength.Statement (Instr.encodeSubcmd subcmd pay) :=
  fun _ => by simp [encode, encodedLength, counted]; omega

theorem EncodeLength.encodeSubcmdRo (subcmd : Byte) (rumble : Rumble8) (pay : List Byte) : EncodeLength.Statement (Instr.encodeSubcmdRo subcmd rumble pay) :=
  fun _ => by simp [encode, encodedLength, Rumble8.bytes]; omega

theorem EncodeLength.encodeRumble : EncodeLength.Statement Instr.encodeRumble :=
  fun _ => rfl

theorem EncodeLength.decode (frame : List Byte) : EncodeLength.Statement (Instr.decode frame) :=
  fun _ => by simp [encode, encodedLength, counted]; omega

theorem EncodeLength.setSide (pid : BitVec 16) : EncodeLength.Statement (Instr.setSide pid) :=
  fun _ => rfl

theorem EncodeLength.calLoadUser (raw : Raw9) : EncodeLength.Statement (Instr.calLoadUser raw) :=
  fun _ => rfl

theorem EncodeLength.calLoadFactory (raw : Raw9) : EncodeLength.Statement (Instr.calLoadFactory raw) :=
  fun _ => rfl

theorem EncodeLength.calSetDeadzone (params : Params5) : EncodeLength.Statement (Instr.calSetDeadzone params) :=
  fun _ => rfl

theorem EncodeLength.classify (h v : Word12) : EncodeLength.Statement (Instr.classify h v) :=
  fun _ => rfl

theorem EncodeLength.unmarshal (raw : Raw9) : EncodeLength.Statement (Instr.unmarshal raw) :=
  fun _ => rfl

theorem EncodeLength.flashReq (addr : BitVec 32) (size : Byte) : EncodeLength.Statement (Instr.flashReq addr size) :=
  fun _ => rfl

theorem EncodeLength.flashReply (frame : List Byte) : EncodeLength.Statement (Instr.flashReply frame) :=
  fun _ => by simp [encode, encodedLength, counted]; omega

theorem EncodeLength.flashTimeout : EncodeLength.Statement Instr.flashTimeout :=
  fun _ => rfl

theorem EncodeLength.readState : EncodeLength.Statement Instr.readState :=
  fun _ => rfl

theorem EncodeLength.sessionClear : EncodeLength.Statement Instr.sessionClear :=
  fun _ => rfl

theorem EncodeLength.reservedOp0 : EncodeLength.Statement Instr.reservedOp0 :=
  fun _ => rfl

theorem EncodeLength.reservedOpF : EncodeLength.Statement Instr.reservedOpF :=
  fun _ => rfl

theorem EncodeLength.reservedRo (op : BitVec 4) : EncodeLength.Statement (Instr.reservedRo op) :=
  fun _ => rfl

theorem EncodeLength.reservedHi (cmd : Byte) : EncodeLength.Statement (Instr.reservedHi cmd) :=
  fun _ => rfl

theorem EncodeLength.wireOutSubcmd (frame : List Byte) : EncodeLength.Statement (Instr.wireOutSubcmd frame) :=
  fun h => wireFrame_length _ _ h

theorem EncodeLength.wireOutRumble (frame : List Byte) : EncodeLength.Statement (Instr.wireOutRumble frame) :=
  fun h => wireFrame_length _ _ h

theorem EncodeLength.wireInStdReply (frame : List Byte) : EncodeLength.Statement (Instr.wireInStdReply frame) :=
  fun h => wireFrame_length _ _ h

theorem EncodeLength.wireInStdFull (frame : List Byte) : EncodeLength.Statement (Instr.wireInStdFull frame) :=
  fun h => wireFrame_length _ _ h

theorem EncodeLength.wireInNfcIr (frame : List Byte) : EncodeLength.Statement (Instr.wireInNfcIr frame) :=
  fun h => wireFrame_length _ _ h

end Sys2Proof.Laws
end

