-- ==== Sys2Proof/Laws/Run.lean ====
section
/-! SUPPORT. What a step and a run of steps are made of. -/

namespace Sys2Proof.Machine

/-- A run of one step more takes a step and runs on from there. -/
theorem runCore_succ (M : Host.Core) (k : Nat) (s t : M.State) (h : M.run (k + 1) s = .next t) :
    ∃ u, M.step s = .next u ∧ M.run k u = .next t := by
  simp only [Host.Core.run] at h
  cases hs : M.step s with
  | next u => exact ⟨u, rfl, by rwa [hs] at h⟩
  | fault r => rw [hs] at h; cases h
  | refused r => rw [hs] at h; cases h

/-- A run of this machine of one step more. -/
theorem run_succ (k : Nat) (s t : State) (h : Host.Core.run core (k + 1) s = .next t) :
    ∃ u : State, step s = .next u ∧ Host.Core.run core k u = .next t :=
  runCore_succ core k s t h

/-- A run of no step stays. -/
theorem run_zero (s t : State) (h : Host.Core.run core 0 s = .next t) : t = s := by
  have e : (.next s : Answer) = .next t := h
  exact (Host.Outcome.next.inj e).symm

/-- What a step that answers a next state did: it executed the command at the served port, its bytes consumed, or it
waited there. -/
theorem step_cases (s t : State) (h : step s = .next t) :
    t = s.takeTurn ∨
      ∃ i rest, Sys2Proof.decode s.takeTurn.stream = .ok (i, rest) ∧
        exec i { s.takeTurn with stream := rest } = .next t := by
  unfold step at h
  split at h
  · rename_i i u hf
    obtain ⟨rest, hd, rfl⟩ := (State.fetch_eq_some _ _ _).1 hf
    exact .inr ⟨i, rest, hd, h⟩
  · exact .inl (Host.Outcome.next.inj h).symm

end Sys2Proof.Machine
end

