-- ==== Sys2Proof/Tests/Slice0.lean ====
section
/-! SUPPORT. The model's own tests: ill-formed terms, words written out from the spec's encodings, one step of each
instruction on a small state with the outcome that 95_test_vectors.md gives, and for every statement with hypotheses a
state and operands that meet them. -/

namespace Sys2Proof.Tests

open Sys2Proof Sys2Proof.Machine

/-! ### Small states -/

/-- An instance after reset with SEQ = q, but for its side and its CAL_STATE; alone in its system. -/
def small (q : BitVec 4) (side : Side) (cal : CalState) : State :=
  { toBlock := { Block.reset q with side := side, calState := cal },
    sharing := .perInstance, peers := [], turns := [] }

/-- An instance with a flash read of `size` bytes pending. -/
def waiting (q : BitVec 4) (size : BitVec 5) : State :=
  { small q .unset .empty with flashPend := true, flashSize := size }

/-- The bank of V-CAL-1 (left) in some CAL_STATE, with a deadzone. -/
def leftBank (q : BitVec 4) (cal : CalState) (dz : Byte) : State :=
  { small q .left cal with cx := 2048#12, cy := 2048#12, minx := 1500#12, miny := 1400#12,
                           maxx := 1500#12, maxy := 1400#12, dz := dz }

/-- The bank of V-CAL-2 (right), locked, with a deadzone. -/
def rightBank (dz : Byte) : State :=
  { small 0#4 .right .locked with cx := 2032#12, cy := 2067#12, minx := 1536#12, miny := 1440#12,
                                  maxx := 1600#12, maxy := 1568#12, dz := dz }

/-- Two instances, both from reset with SEQ = 0 (program P4), and the order in which their hosts issue. -/
def pair (sharing : SeqSharing) (a b : List Byte) (turns : List Turn) : State :=
  { toBlock := { Block.reset 0#4 with stream := a }, sharing := sharing,
    peers := [{ Block.reset 0#4 with stream := b }], turns := turns }

/-- What a host observes of one step (70_reset_and_hazards.md R245): the response and the snapshot. -/
def observe : Answer → Option (Response × BitVec 96)
  | .next t => t.responses.getLast?.map fun r => (r, snapWord t.toBlock)
  | .fault _ => none
  | .refused _ => none

/-- One command presented at the port, executed by `step`. -/
def issue (s : State) (bytes : List Byte) : Option (Response × BitVec 96) := observe (step (s.present bytes))

/-- A run of zeros. -/
def zeros (n : Nat) : List Byte := List.replicate n 0x00#8

/-- The reply frame of section 2.3: byte 13 = ack, byte 14 = echo, then address, size and data. -/
def replyFrame (rid ack echo : Byte) (tail : List Byte) : List Byte :=
  [rid, 0x00#8, 0x8E#8] ++ zeros 10 ++ [ack, echo] ++ tail ++ zeros (34 - tail.length)

/-- Address 0x8012, size 9 and the nine data bytes of V-FLS-6. -/
def fls6 : List Byte :=
  [0x12#8, 0x80#8, 0x00#8, 0x00#8, 0x09#8, 0xDC#8, 0x85#8, 0x57#8, 0x00#8, 0x08#8, 0x80#8, 0xDC#8, 0x85#8, 0x57#8]

/-- RAW of V-CAL-1. -/
def raw1 : Raw9 := ⟨0xDC#8, 0x85#8, 0x57#8, 0x00#8, 0x08#8, 0x80#8, 0xDC#8, 0x85#8, 0x57#8⟩

/-- RAW of V-CAL-2. -/
def raw2 : Raw9 := ⟨0xF0#8, 0x37#8, 0x81#8, 0x00#8, 0x06#8, 0x5A#8, 0x40#8, 0x06#8, 0x62#8⟩

/-- Nine bytes 0xFF. -/
def rawErased : Raw9 := ⟨0xFF#8, 0xFF#8, 0xFF#8, 0xFF#8, 0xFF#8, 0xFF#8, 0xFF#8, 0xFF#8, 0xFF#8⟩

/-- LFR of section 2.4. -/
def lfr : List Byte :=
  [0x30#8, 0x5A#8, 0x8E#8, 0x00#8, 0x09#8, 0x41#8, 0xC4#8, 0x09#8, 0x7D#8] ++ zeros 40

/-- RFR of section 2.4. -/
def rfr : List Byte :=
  [0x21#8, 0x00#8, 0x41#8, 0x88#8, 0x96#8, 0xFF#8, 0x00#8, 0x00#8, 0x00#8, 0xF0#8, 0x37#8, 0x81#8] ++ zeros 37

/-! ### Ill-formed terms -/

/-- One term per check of `wellFormed` that it refuses, for the counted operands and the reserved rows. -/
theorem test_illFormed_commands :
    (Instr.encodeSubcmd 0#8 (zeros 256)).wellFormed = false ∧
    (Instr.encodeSubcmdRo 0#8 rumbleNeutral (zeros 256)).wellFormed = false ∧
    (Instr.decode (zeros 256)).wellFormed = false ∧ (Instr.flashReply (zeros 256)).wellFormed = false ∧
    (Instr.reservedRo 1#4).wellFormed = false ∧ (Instr.reservedHi 0x1F#8).wellFormed = false := by decide +kernel

/-- The same for the five frame kinds of the wire: a wrong byte 0, a wrong length. -/
theorem test_illFormed_wire :
    (Instr.wireOutSubcmd (0x10#8 :: zeros 48)).wellFormed = false ∧
    (Instr.wireOutRumble (0x01#8 :: zeros 48)).wellFormed = false ∧
    (Instr.wireInStdReply (0x21#8 :: zeros 47)).wellFormed = false ∧
    (Instr.wireInStdFull (0x30#8 :: zeros 49)).wellFormed = false ∧
    (Instr.wireInNfcIr []).wellFormed = false := by decide

/-! ### Words from the spec's encodings (R60 to R64, V-ENC-1 to V-ENC-3) -/

theorem test_decode_encodeSubcmd :
    decode [0x01#8, 0x48#8, 0x01#8, 0x01#8] = .ok (.encodeSubcmd 0x48#8 [0x01#8], []) := by rfl

theorem test_decode_encodeSubcmdRo :
    decode [0x11#8, 0x48#8, 0x01#8, 0x04#8, 0x8A#8, 0x40#8, 0x40#8, 0x04#8, 0x8A#8, 0x40#8, 0x41#8, 0x01#8] =
      .ok (.encodeSubcmdRo 0x48#8 ⟨0x04#8, 0x8A#8, 0x40#8, 0x40#8, 0x04#8, 0x8A#8, 0x40#8, 0x41#8⟩ [0x01#8], []) := by
  rfl

theorem test_decode_encodeRumble : decode [0x02#8] = .ok (.encodeRumble, []) := by rfl

/-- V-ENC-3: ten bytes after LEN = 0x0A; the byte after them is the next descriptor. -/
theorem test_decode_decode :
    decode ([0x03#8, 0x0A#8, 0x30#8] ++ zeros 9 ++ [0x0D#8]) = .ok (.decode (0x30#8 :: zeros 9), [0x0D#8]) := by rfl

theorem test_decode_setSide : decode [0x04#8, 0x06#8, 0x20#8] = .ok (.setSide 0x2006#16, []) := by rfl

theorem test_decode_calLoadUser :
    decode [0x05#8, 0xDC#8, 0x85#8, 0x57#8, 0x00#8, 0x08#8, 0x80#8, 0xDC#8, 0x85#8, 0x57#8] =
      .ok (.calLoadUser raw1, []) := by rfl

theorem test_decode_calLoadFactory :
    decode [0x06#8, 0xF0#8, 0x37#8, 0x81#8, 0x00#8, 0x06#8, 0x5A#8, 0x40#8, 0x06#8, 0x62#8] =
      .ok (.calLoadFactory raw2, []) := by rfl

theorem test_decode_calSetDeadzone :
    decode [0x07#8, 0x0F#8, 0x30#8, 0x61#8, 0xA0#8, 0x31#8] =
      .ok (.calSetDeadzone ⟨0x0F#8, 0x30#8, 0x61#8, 0xA0#8, 0x31#8⟩, []) := by rfl

theorem test_decode_classify : decode [0x08#8, 0x00#8, 0x88#8, 0x3E#8] = .ok (.classify 2048#12 1000#12, []) := by rfl

theorem test_decode_unmarshal :
    decode [0x09#8, 0xF0#8, 0x37#8, 0x81#8, 0x00#8, 0x06#8, 0x5A#8, 0x40#8, 0x06#8, 0x62#8] =
      .ok (.unmarshal raw2, []) := by rfl

theorem test_decode_flashReq :
    decode [0x0A#8, 0x12#8, 0x80#8, 0x00#8, 0x00#8, 0x09#8] = .ok (.flashReq 0x8012#32 9#8, []) := by rfl

theorem test_decode_flashReply :
    decode [0x0B#8, 0x02#8, 0x21#8, 0x7F#8] = .ok (.flashReply [0x21#8, 0x7F#8], []) := by rfl

theorem test_decode_operandless :
    decode [0x0C#8] = .ok (.flashTimeout, []) ∧ decode [0x0D#8] = .ok (.readState, []) ∧
    decode [0x0E#8] = .ok (.sessionClear, []) := by decide

/-- V-ENC-2 and R64: the reserved descriptors consume one byte. -/
theorem test_decode_reserved :
    decode [0x00#8, 0x01#8] = .ok (.reservedOp0, [0x01#8]) ∧ decode [0x0F#8] = .ok (.reservedOpF, []) ∧
    decode [0x10#8] = .ok (.reservedRo 0#4, []) ∧ decode [0x12#8, 0x48#8] = .ok (.reservedRo 2#4, [0x48#8]) ∧
    decode [0x1F#8] = .ok (.reservedRo 0xF#4, []) ∧ decode [0x21#8] = .ok (.reservedHi 0x21#8, []) ∧
    decode [0x31#8] = .ok (.reservedHi 0x31#8, []) ∧ decode [0xFF#8] = .ok (.reservedHi 0xFF#8, []) := by decide

/-- R225: a stream that ends inside a command is rejected by the command's name; so is an empty one. -/
theorem test_decode_rejects :
    decode [] = .error .noCommand ∧ decode [0x01#8, 0x48#8, 0x02#8, 0x01#8] = .error (.incomplete "ENCODE_SUBCMD") ∧
    decode [0x04#8, 0x06#8] = .error (.incomplete "SET_SIDE") := by decide

/-- R66, R67, R69, R70: the frame kinds of the wire, by byte 0 and direction. -/
theorem test_readWire :
    readWireOut (0x01#8 :: zeros 48) = some (.wireOutSubcmd (0x01#8 :: zeros 48)) ∧
    readWireOut (0x10#8 :: zeros 48) = some (.wireOutRumble (0x10#8 :: zeros 48)) ∧
    readWireIn (0x21#8 :: zeros 48) = some (.wireInStdReply (0x21#8 :: zeros 48)) ∧
    readWireIn (0x30#8 :: zeros 48) = some (.wireInStdFull (0x30#8 :: zeros 48)) ∧
    readWireIn (0x31#8 :: zeros 48) = some (.wireInNfcIr (0x31#8 :: zeros 48)) ∧
    readWireIn (0x3F#8 :: zeros 48) = none := by decide

/-- V-ENC-1: packing and unpacking of (1500, 1400) and (2032, 2067). -/
theorem test_packing :
    unpack12 0xDC#8 0x85#8 0x57#8 = (1500#12, 1400#12) ∧ unpack12 0xF0#8 0x37#8 0x81#8 = (2032#12, 2067#12) ∧
    packByte0 1500#12 = 0xDC#8 ∧ packByte1 1500#12 1400#12 = 0x85#8 ∧ packByte2 1400#12 = 0x57#8 := by decide

/-- V-ENC-3 through the assembler (R90, R91). -/
theorem test_assemble_line :
    assembleLine "FLASH_REQ 0x6050, 40".toList = some [0x0A#8, 0x50#8, 0x60#8, 0x00#8, 0x00#8, 0x28#8] := by
  decide +kernel

/-- Program P1, step 13: a byte list with a fill (R90). -/
theorem test_assemble_fill :
    assembleLine "DECODE [0x30,0x5A,0x8E,0x00,0x09,0x41,0xC4,0x09,0x7D] ++ 0*40".toList =
      some ([0x03#8, 0x31#8] ++ lfr) := by decide +kernel

/-- Program P2, step 2: a pseudo-command (R91). -/
theorem test_assemble_pseudo :
    assembleLine "READ_USER_CAL.R".toList = some [0x0A#8, 0x1D#8, 0x80#8, 0x00#8, 0x00#8, 0x09#8] := by
  decide +kernel

/-! ### One step of each instruction -/

/-- V-FRM-1. -/
theorem test_encodeSubcmd_frame :
    issue (small 0#4 .unset .empty) [0x01#8, 0x48#8, 0x01#8, 0x01#8] =
      some (⟨.ok, .frame ([0x01#8, 0x00#8, 0x00#8, 0x01#8, 0x40#8, 0x40#8, 0x00#8, 0x01#8, 0x40#8, 0x40#8, 0x48#8,
        0x01#8] ++ zeros 37)⟩, 0x31#96) := by decide

/-- V-FRM-4 and V-EXC-7: 39 bytes are too many, 38 are not, whether or not a read is pending. -/
theorem test_encodeSubcmd_limit :
    issue (waiting 6#4 0#5) ([0x01#8, 0x01#8, 0x27#8] ++ List.replicate 39 0xAA#8) =
      some (⟨.payloadTooLarge, .none⟩, 0x136#96) ∧
    (issue (waiting 5#4 0#5) ([0x01#8, 0x01#8, 0x26#8] ++ List.replicate 38 0xAA#8)).map (·.2) =
      some 0x136#96 := by decide +kernel

/-- V-FRM-6: the override, at SEQ = 15. -/
theorem test_encodeSubcmdRo_wraps :
    issue (small 15#4 .unset .empty)
      [0x11#8, 0x48#8, 0x01#8, 0x04#8, 0x8A#8, 0x40#8, 0x40#8, 0x04#8, 0x8A#8, 0x40#8, 0x40#8, 0x01#8] =
      some (⟨.ok, .frame ([0x01#8, 0x0F#8, 0x04#8, 0x8A#8, 0x40#8, 0x40#8, 0x04#8, 0x8A#8, 0x40#8, 0x40#8, 0x48#8,
        0x01#8] ++ zeros 37)⟩, 0x30#96) := by decide

/-- V-FRM-3: rumble bytes are zero, not neutral. -/
theorem test_encodeRumble_frame :
    issue (small 3#4 .unset .empty) [0x02#8] =
      some (⟨.ok, .frame ([0x10#8, 0x03#8] ++ zeros 47)⟩, 0x34#96) := by decide

/-- V-DEC-1. -/
theorem test_decode_left :
    (issue (leftBank 0#4 .locked 160#8) ([0x03#8, 0x31#8] ++ lfr)).map (·.1) =
      some ⟨.ok, .deviceStatus 0x0011F42710D05C30#64⟩ := by decide +kernel

/-- V-DEC-2. -/
theorem test_decode_right :
    (issue (rightBank 64#8) ([0x03#8, 0x31#8] ++ rfr)).map (·.1) =
      some ⟨.ok, .deviceStatus 0x001A04DFC3E22221#64⟩ := by decide +kernel

/-- V-CAL-8 and V-EXC-6: SEQUENCE_ERROR comes before UNKNOWN_SIDE. -/
theorem test_setSide_errors :
    (issue (small 0#4 .left .loaded) [0x04#8, 0x34#8, 0x12#8]).map (·.1) = some ⟨.sequenceError, .none⟩ ∧
    (issue (small 0#4 .left .empty) [0x04#8, 0x34#8, 0x12#8]).map (·.1) = some ⟨.unknownSide, .none⟩ := by decide

/-- V-CAL-8: a side may be changed while the calibration is EMPTY. -/
theorem test_setSide_changes :
    issue (small 0#4 .left .empty) [0x04#8, 0x07#8, 0x20#8] = some (⟨.ok, .none⟩, 0x10#96) := by decide

/-- Program P1, step 6 (LOADED, DZ = 0): the snapshot is the end state's without its deadzone and lock. -/
theorem test_calLoadUser_loads :
    issue { small 6#4 .left .empty with flashSize := 5#5 } (0x05#8 :: raw1.bytes) =
      some (⟨.ok, .none⟩, 0x15E17715E177200200000A86#96) := by decide +kernel

/-- V-CAL-5: nine bytes 0xFF ask for the factory section; eight of them are a calibration. -/
theorem test_calLoadUser_fallback :
    issue (small 0#4 .right .empty) (0x05#8 :: rawErased.bytes) = some (⟨.needFactory, .none⟩, 0x50#96) ∧
    (issue (small 0#4 .right .empty) (0x05#8 :: { rawErased with b8 := 0xFE#8 }.bytes)).map (·.1) =
      some ⟨.ok, .none⟩ := by decide +kernel

/-- Program P2, step 8: the bank of V-CAL-2. -/
theorem test_calLoadFactory_loads :
    step ((small 0#4 .right .needFactory).present (0x06#8 :: raw2.bytes)) =
      .next { rightBank 0#8 with calState := .loaded, responses := [⟨.ok, .none⟩] } := by rfl

/-- Program P1, step 9: DZ = 0xA0 and the lock, the snapshot being the program's end state. -/
theorem test_calSetDeadzone_locks :
    issue { leftBank 6#4 .loaded 0#8 with flashSize := 5#5 } [0x07#8, 0x0F#8, 0x30#8, 0x61#8, 0xA0#8, 0x31#8] =
      some (⟨.ok, .none⟩, 0x15E17715E177200200280AC6#96) := by decide +kernel

/-- V-CLS-4, V-CLS-12 and V-CLS-15: the 30 degree edge, the clamp, and the floor of the midpoint. -/
theorem test_classify_edges :
    classify (leftBank 0#4 .locked 160#8).toBlock 3048#12 2625#12 = .right ∧
    classify (leftBank 0#4 .locked 160#8).toBlock 3048#12 2626#12 = .upperRight ∧
    classify { leftBank 0#4 .locked 0#8 with cx := 1000#12, minx := 900#12, maxx := 100#12 }.toBlock
      4000#12 3248#12 = .upperRight ∧
    classify { leftBank 0#4 .locked 1#8 with cx := 0#12, minx := 3#12, maxx := 0#12 }.toBlock
      0#12 2048#12 = .invalid := by decide +kernel

/-- V-CLS-2 and V-CLS-9: Down when locked, Invalid otherwise, OK both times. -/
theorem test_classify_lock :
    (issue (leftBank 0#4 .locked 160#8) [0x08#8, 0x00#8, 0x88#8, 0x3E#8]).map (·.1) = some ⟨.ok, .direction 6#4⟩ ∧
    (issue (leftBank 0#4 .loaded 160#8) [0x08#8, 0x00#8, 0x88#8, 0x3E#8]).map (·.1) = some ⟨.ok, .direction 0#4⟩ := by
  decide +kernel

/-- V-CAL-2 and V-CAL-3: the layout of the nine bytes depends on the side. -/
theorem test_unmarshal_layouts :
    (issue (small 0#4 .right .locked) (0x09#8 :: raw2.bytes)).map (·.1) =
      some ⟨.ok, .calibration 0x6206405A06008137F0#72⟩ ∧
    (issue (small 0#4 .left .locked) (0x09#8 :: raw2.bytes)).map (·.1) =
      some ⟨.ok, .calibration 0x8137F06206405A0600#72⟩ := by decide +kernel

/-- V-FLS-2: the clamp to 29 (0x1D). -/
theorem test_flashReq_clamps :
    issue (small 0#4 .unset .empty) [0x0A#8, 0x50#8, 0x60#8, 0x00#8, 0x00#8, 0x28#8] =
      some (⟨.ok, .frame ([0x01#8, 0x00#8, 0x00#8, 0x01#8, 0x40#8, 0x40#8, 0x00#8, 0x01#8, 0x40#8, 0x40#8, 0x10#8,
        0x50#8, 0x60#8, 0x00#8, 0x00#8, 0x1D#8] ++ zeros 33)⟩, 0x3B31#96) := by decide

/-- V-EXC-8: FLASH_BUSY, and FLASH_SIZE keeps its value. -/
theorem test_flashReq_busy :
    issue (waiting 1#4 9#5) [0x0A#8, 0x50#8, 0x60#8, 0x00#8, 0x00#8, 0x28#8] =
      some (⟨.flashBusy, .none⟩, 0x1331#96) := by decide

/-- V-FLS-6: nine data bytes. -/
theorem test_flashReply_data :
    issue (waiting 1#4 9#5) ([0x0B#8, 0x31#8] ++ replyFrame 0x21#8 0x90#8 0x10#8 fls6) =
      some (⟨.ok, .data [0xDC#8, 0x85#8, 0x57#8, 0x00#8, 0x08#8, 0x80#8, 0xDC#8, 0x85#8, 0x57#8]⟩, 0x1231#96) := by
  decide +kernel

/-- V-FLS-7 and V-FLS-8: NACK ends the read; a mismatch is discarded first. -/
theorem test_flashReply_nack :
    issue (waiting 1#4 9#5) ([0x0B#8, 0x31#8] ++ replyFrame 0x21#8 0x7F#8 0x10#8 fls6) =
      some (⟨.nack, .none⟩, 0x1231#96) ∧
    issue (waiting 1#4 9#5) ([0x0B#8, 0x31#8] ++ replyFrame 0x31#8 0x00#8 0x10#8 fls6) =
      some (⟨.discarded, .none⟩, 0x1331#96) := by decide +kernel

/-- V-FLS-12. -/
theorem test_flashTimeout_ends :
    issue (waiting 1#4 9#5) [0x0C#8] = some (⟨.timeout, .none⟩, 0x1231#96) ∧
    issue (small 0#4 .unset .empty) [0x0C#8] = some (⟨.noPendingRead, .none⟩, 0x30#96) := by decide

/-- V-CTL-1 and V-CTL-2. -/
theorem test_readState_snapshot :
    issue (small 5#4 .unset .empty) [0x0D#8] = some (⟨.ok, .snapshot 0x35#96⟩, 0x35#96) ∧
    issue (waiting 1#4 9#5) [0x0D#8] = some (⟨.ok, .snapshot 0x1331#96⟩, 0x1331#96) := by decide

/-- V-CTL-3. -/
theorem test_sessionClear_keeps_seq :
    issue { leftBank 7#4 .locked 160#8 with flashPend := true, flashSize := 5#5 } [0x0E#8] =
      some (⟨.ok, .none⟩, 0x37#96) := by decide

/-- V-CTL-6 and V-EXC-9: each reserved descriptor, with SEQ unchanged. -/
theorem test_reserved_illegal :
    issue (small 2#4 .unset .empty) [0x00#8] = some (⟨.illegalCommand, .none⟩, 0x32#96) ∧
    issue (small 2#4 .unset .empty) [0x0F#8] = some (⟨.illegalCommand, .none⟩, 0x32#96) ∧
    issue (small 2#4 .unset .empty) [0x1A#8] = some (⟨.illegalCommand, .none⟩, 0x32#96) ∧
    issue (small 2#4 .unset .empty) [0xFF#8] = some (⟨.illegalCommand, .none⟩, 0x32#96) := by decide

/-- R255: a frame of the wire is refused, and the opcode table's word of one is a command on the command stream. -/
theorem test_wire_refused :
    exec (.wireInStdFull lfr) (small 0#4 .left .empty) = .refused (.transportFrame "WIRE_IN_STD_FULL") ∧
    decodeTableWord 8 0x30 = some (.reservedHi 0x30#8) := ⟨rfl, by decide⟩

/-- Program P4, steps 3 and 4, SHARED: the second instance's frame takes the next number. -/
theorem test_shared_counter :
    (issue { small 1#4 .unset .empty with sharing := .shared } [0x02#8]).map (·.2) = some 0x32#96 ∧
    observe (step { pair .shared [] [0x02#8] [.peer 0] with seq := 1#4 }) =
      some (⟨.ok, .frame ([0x10#8, 0x01#8] ++ zeros 47)⟩, 0x32#96) := by decide +kernel

/-- Program P4, step 4, PER_INSTANCE: the second instance counts its own frames. -/
theorem test_perInstance_counter :
    observe (step { pair .perInstance [] [0x02#8] [.peer 0] with seq := 1#4 }) =
      some (⟨.ok, .frame ([0x10#8, 0x00#8] ++ zeros 47)⟩, 0x31#96) := by decide +kernel

/-- R225: a stream that ends inside a command leaves the state as it was. -/
theorem test_incomplete_waits :
    step ((small 0#4 .unset .empty).present [0x04#8, 0x06#8]) =
      .next ((small 0#4 .unset .empty).present [0x04#8, 0x06#8]) := by rfl

/-- A table word placed by `withFetchWord` is the next step's instruction, from reset. -/
theorem test_withFetchWord :
    (State.reset.withFetchWord 8 0x0E).fetch.map (·.1) = some .sessionClear ∧
    (State.reset.withFetchWord 8 0x11).fetch.map (·.1) =
      some (.encodeSubcmdRo 0#8 ⟨0#8, 0#8, 0#8, 0#8, 0#8, 0#8, 0#8, 0#8⟩ []) := by decide

/-! ### Witnesses: states and operands that meet the hypotheses of the statements

Each theorem names its statement and instantiates its hypotheses, at the values where they begin or end. -/

/-- DecodeReadsBackEncodedCommand, at the longest payload. -/
theorem test_witness_decodeReadsBack :
    (Instr.encodeSubcmd 0#8 (zeros 255)).wellFormed = true ∧ (Instr.encodeSubcmd 0#8 (zeros 255)).isCommand = true := by
  decide +kernel

/-- DecodedBytesAreTheEncoding and StepRunsTheDecodedCommand. -/
theorem test_witness_decoded :
    decode ((small 0#4 .left .empty).present [0x04#8, 0x06#8, 0x20#8, 0x0D#8]).takeTurn.stream =
      .ok (.setSide 0x2006#16, [0x0D#8]) := by rfl

/-- IllegalDescriptorAnswersIllegalCommand: 0x00, 0x0F, 0x20, 0xFF, 0x10, 0x12 and 0x1F, each under a clause of its
own; 0x11 and 0x0E under none. -/
theorem test_witness_illegalDescriptor :
    ((small 0#4 .left .empty).present [0x00#8]).turns = [] ∧
    ((small 0#4 .left .empty).present [0x00#8]).stream = 0x00#8 :: [] ∧
    (0x00#8).toNat % 16 = 0 ∧ (0x0F#8).toNat % 16 = 15 ∧ (0x20#8).toNat / 32 ≠ 0 ∧ (0xFF#8).toNat / 32 ≠ 0 ∧
    (∀ cmd ∈ [0x10#8, 0x12#8, 0x1F#8], cmd.toNat / 16 % 2 = 1 ∧ cmd.toNat % 16 ≠ 1) ∧
    (∀ cmd ∈ [0x11#8, 0x01#8, 0x0E#8], ¬ (cmd.toNat % 16 = 0 ∨ cmd.toNat % 16 = 15 ∨ cmd.toNat / 32 ≠ 0 ∨
      (cmd.toNat / 16 % 2 = 1 ∧ cmd.toNat % 16 ≠ 1))) := by decide

/-- LegalDescriptorSelectsCommand: counted bytes of the least and the greatest length, and a descriptor of each kind. -/
theorem test_witness_legalDescriptor :
    ([] : List Byte).length = (0x00#8).toNat ∧ (zeros 255).length = (0xFF#8).toNat ∧
    decode (0x0E#8 :: []) = .ok (.sessionClear, []) ∧ decode (0x1F#8 :: []) = .ok (.reservedRo 0xF#4, []) := by
  decide +kernel

/-- IncompleteCommandIsNotExecuted: two of the three bytes of SET_SIDE. -/
theorem test_witness_incomplete :
    (Instr.setSide 0x2006#16).wellFormed = true ∧ (Instr.setSide 0x2006#16).isCommand = true ∧
    2 < (encode (.setSide 0x2006#16)).length ∧ ((small 0#4 .left .empty).present [0x04#8, 0x06#8]).turns = [] ∧
    ((small 0#4 .left .empty).present [0x04#8, 0x06#8]).stream = (encode (.setSide 0x2006#16)).take 2 := by decide

/-- EveryCommandGivesOneAllowedResponse. -/
theorem test_witness_command : (Instr.reservedHi 0x20#8).isCommand = true := by decide

/-- StatusDecidesWhatIsWritten: a state for each of its three cases. -/
theorem test_witness_statuses :
    (∃ t, exec .flashTimeout (waiting 0#4 9#5) = .next t ∧
      t.responses = (waiting 0#4 9#5).responses ++ [⟨.timeout, .none⟩] ∧ Status.timeout ≠ .ok) ∧
    (∃ t, exec (.flashReply (replyFrame 0x21#8 0x7F#8 0x10#8 [])) (waiting 0#4 9#5) = .next t ∧
      t.responses = (waiting 0#4 9#5).responses ++ [⟨.nack, .none⟩] ∧ Status.nack ≠ .ok) ∧
    (∃ t, exec (.calLoadUser rawErased) (small 0#4 .left .empty) = .next t ∧
      t.responses = (small 0#4 .left .empty).responses ++ [⟨.needFactory, .none⟩] ∧ Status.needFactory ≠ .ok) ∧
    (∃ t, exec (.flashReply []) (waiting 0#4 9#5) = .next t ∧
      t.responses = (waiting 0#4 9#5).responses ++ [⟨.discarded, .none⟩] ∧ Status.discarded ≠ .ok) :=
  ⟨⟨_, rfl, rfl, by decide⟩, ⟨_, rfl, rfl, by decide⟩, ⟨_, rfl, rfl, by decide⟩, ⟨_, rfl, rfl, by decide⟩⟩

/-- ReadOnlyCommandsAreIdempotent: each of its four commands. -/
theorem test_witness_readOnly :
    (∃ t, exec (.decode lfr) (small 0#4 .left .empty) = .next t) ∧
    (∃ t, exec (.unmarshal raw1) (small 0#4 .left .empty) = .next t) ∧
    (∃ t, exec (.classify 0#12 0#12) (small 0#4 .left .empty) = .next t) ∧
    (∃ t, exec .readState (small 0#4 .left .empty) = .next t) := ⟨⟨_, rfl⟩, ⟨_, rfl⟩, ⟨_, rfl⟩, ⟨_, rfl⟩⟩

/-- OutcomeDependsOnRegistersAlone. -/
theorem test_witness_outcome :
    ∃ t, exec .encodeRumble (small 0#4 .left .empty) = .next t ∧
      t.responses = (small 0#4 .left .empty).responses ++ [⟨.ok, .frame (rumbleFrame 0#4)⟩] := ⟨_, rfl, rfl⟩

/-- EncodeSubcmdBuildsTheFrame: both forms, at 38 bytes, and OversizedPayloadIsRejected: at 39. -/
theorem test_witness_payload :
    (zeros 38).length ≤ 38 ∧ 38 < (zeros 39).length ∧
    (∃ i : Instr, i = .encodeSubcmd 0#8 (zeros 38)) ∧
    (∃ i : Instr, i = .encodeSubcmdRo 0#8 rumbleNeutral (zeros 38) ∧
      rumbleNeutral.bytes = [0x00#8, 0x01#8, 0x40#8, 0x40#8, 0x00#8, 0x01#8, 0x40#8, 0x40#8]) :=
  ⟨by decide, by decide, ⟨_, rfl⟩, ⟨_, rfl, rfl⟩⟩

/-- SeqAdvancesExactlyWithAFrame: a command of each kind; at SEQ = 15 for the first. -/
theorem test_witness_seqAdvance :
    (∃ t, exec .encodeRumble (small 15#4 .left .empty) = .next t ∧ t.seq = 0#4) ∧
    (∃ t, exec .readState (small 15#4 .left .empty) = .next t ∧ t.seq = 15#4) := ⟨⟨_, rfl, rfl⟩, ⟨_, rfl, rfl⟩⟩

/-- SeqCountsFramesOverARun. -/
theorem test_witness_run :
    ((small 15#4 .left .empty).present [0x02#8, 0x02#8]).turns = [] ∧
    ∃ t, Host.Core.run core 2 ((small 15#4 .left .empty).present [0x02#8, 0x02#8]) = .next t ∧
      t.responses = [⟨.ok, .frame (rumbleFrame 15#4)⟩, ⟨.ok, .frame (rumbleFrame 0#4)⟩] ∧
      (t.responses.filter Response.isFrame)[1]? = some ⟨.ok, .frame (rumbleFrame 0#4)⟩ := ⟨rfl, _, rfl, rfl, rfl⟩

/-- FlashReqBuildsTheRequest, FlashReqIsBusyWhilePending, FlashTimeoutEndsThePendingRead. -/
theorem test_witness_pending :
    (small 0#4 .left .empty).flashPend = false ∧ (waiting 0#4 29#5).flashPend = true := by decide

/-- OversizedFlashReqActsAsTwentyNine: from 30 on. -/
theorem test_witness_oversized : 29 < (30#8).toNat ∧ ¬ 29 < (29#8).toNat := by decide

/-- FlashReplyRejections: a frame for each clause, 48 and 49 bytes at the length's edge, 0x7F at the acknowledge's. -/
theorem test_witness_flashReply_rejections :
    (small 0#4 .left .empty).flashPend = false ∧ (waiting 0#4 9#5).flashPend = true ∧ (zeros 48).length < 49 ∧
    (49 ≤ (replyFrame 0x30#8 0x00#8 0x10#8 []).length ∧ (replyFrame 0x30#8 0x00#8 0x10#8 [])[0]? ≠ some 0x21#8) ∧
    (49 ≤ (replyFrame 0x21#8 0x00#8 0x03#8 []).length ∧ (replyFrame 0x21#8 0x00#8 0x03#8 [])[14]? ≠ some 0x10#8) ∧
    (49 ≤ (replyFrame 0x21#8 0x7F#8 0x10#8 []).length ∧ (replyFrame 0x21#8 0x7F#8 0x10#8 [])[0]? = some 0x21#8 ∧
      (replyFrame 0x21#8 0x7F#8 0x10#8 [])[14]? = some 0x10#8 ∧
      (replyFrame 0x21#8 0x7F#8 0x10#8 [])[13]? = some 0x7F#8 ∧ (0x7F#8).toNat < 128) := by decide

/-- FlashReplyReturnsTheData: the largest read, the smallest acknowledge. -/
theorem test_witness_flashReply_data :
    (waiting 0#4 29#5).flashPend = true ∧ (waiting 0#4 29#5).flashSize.toNat ≤ 29 ∧
    49 ≤ (replyFrame 0x21#8 0x80#8 0x10#8 fls6).length ∧ (replyFrame 0x21#8 0x80#8 0x10#8 fls6)[0]? = some 0x21#8 ∧
    (replyFrame 0x21#8 0x80#8 0x10#8 fls6)[14]? = some 0x10#8 ∧
    (replyFrame 0x21#8 0x80#8 0x10#8 fls6)[13]? = some 0x80#8 ∧ 128 ≤ (0x80#8).toNat := by decide

/-- PendingReadEndsOnlyByItsOutcomes: a beginning, and an end of each kind. -/
theorem test_witness_pendingEnds :
    (∃ t, exec (.flashReq 0#32 0#8) (small 0#4 .left .empty) = .next t ∧
      (small 0#4 .left .empty).flashPend = false ∧ t.flashPend = true) ∧
    (∃ t, exec (.flashReply (replyFrame 0x21#8 0x80#8 0x10#8 [])) (waiting 0#4 9#5) = .next t ∧
      (waiting 0#4 9#5).flashPend = true ∧ t.flashPend = false) ∧
    (∃ t, exec (.flashReply (replyFrame 0x21#8 0x7F#8 0x10#8 [])) (waiting 0#4 9#5) = .next t ∧
      (waiting 0#4 9#5).flashPend = true ∧ t.flashPend = false) ∧
    (∃ t, exec .flashTimeout (waiting 0#4 9#5) = .next t ∧
      (waiting 0#4 9#5).flashPend = true ∧ t.flashPend = false) ∧
    (∃ t, exec .sessionClear (waiting 0#4 9#5) = .next t ∧
      (waiting 0#4 9#5).flashPend = true ∧ t.flashPend = false) :=
  ⟨⟨_, rfl, rfl, rfl⟩, ⟨_, rfl, rfl, rfl⟩, ⟨_, rfl, rfl, rfl⟩, ⟨_, rfl, rfl, rfl⟩, ⟨_, rfl, rfl, rfl⟩⟩

/-- DecodeReadsTheLeftHalf: the frame LFR. -/
theorem test_witness_decode_left :
    (leftBank 0#4 .locked 160#8).side = .left ∧ 49 ≤ lfr.length ∧
    (0x30#8 = 0x21#8 ∨ 0x30#8 = 0x30#8 ∨ 0x30#8 = 0x31#8) ∧ lfr[0]? = some 0x30#8 ∧ lfr[2]? = some 0x8E#8 ∧
    lfr[4]? = some 0x09#8 ∧ lfr[5]? = some 0x41#8 ∧ lfr[6]? = some 0xC4#8 ∧ lfr[7]? = some 0x09#8 ∧
    lfr[8]? = some 0x7D#8 := by decide

/-- DecodeReadsTheRightHalf: the frame RFR. -/
theorem test_witness_decode_right :
    (rightBank 64#8).side = .right ∧ 49 ≤ rfr.length ∧
    (0x21#8 = 0x21#8 ∨ 0x21#8 = 0x30#8 ∨ 0x21#8 = 0x31#8) ∧ rfr[0]? = some 0x21#8 ∧ rfr[2]? = some 0x41#8 ∧
    rfr[3]? = some 0x88#8 ∧ rfr[4]? = some 0x96#8 ∧ rfr[9]? = some 0xF0#8 ∧ rfr[10]? = some 0x37#8 ∧
    rfr[11]? = some 0x81#8 := by decide

/-- DecodeRejections: a frame for each clause. -/
theorem test_witness_decode_rejections :
    (small 0#4 .unset .empty).side = .unset ∧ (small 0#4 .left .empty).side ≠ .unset ∧ (zeros 48).length < 49 ∧
    49 ≤ (0x3F#8 :: zeros 48).length ∧ (0x3F#8 :: zeros 48)[0]? ≠ some 0x21#8 ∧
    (0x3F#8 :: zeros 48)[0]? ≠ some 0x30#8 ∧ (0x3F#8 :: zeros 48)[0]? ≠ some 0x31#8 := by decide

/-- DecodeReadsOnlyItsBytes: V-DEC-12, byte 3 changed for the left half and byte 5 for the right. -/
theorem test_witness_decode_bytes :
    49 ≤ lfr.length ∧ 49 ≤ (lfr.set 3 0xFF#8).length ∧
    (∀ k ∈ [0, 2, 4, 5, 6, 7, 8], lfr[k]? = (lfr.set 3 0xFF#8)[k]?) ∧
    49 ≤ rfr.length ∧ 49 ≤ (rfr.set 5 0x00#8).length ∧
    (∀ k ∈ [0, 2, 4, 3, 9, 10, 11], rfr[k]? = (rfr.set 5 0x00#8)[k]?) := by decide

/-- UnmarshalReturnsTheSixFields, CalLoadUserLoadsOrAsksForFactory, CalLoadFactoryLoads: no side, and both halves, with
every branch of the loads. -/
theorem test_witness_calibration :
    (small 0#4 .unset .loaded).side = .unset ∧ (small 0#4 .left .locked).side ≠ .unset ∧
    ((small 0#4 .left .empty).side = .left ∧ Half.left = .left) ∧
    ((small 0#4 .right .needFactory).side = .right ∧ Half.right = .right) ∧
    ((small 0#4 .left .loaded).calState ≠ .empty ∧ (small 0#4 .left .loaded).calState ≠ .needFactory) ∧
    ¬ ((small 0#4 .right .needFactory).calState ≠ .empty ∧ (small 0#4 .right .needFactory).calState ≠ .needFactory) ∧
    (∀ b ∈ rawErased.bytes, b = 0xFF#8) ∧ ¬ ∀ b ∈ { rawErased with b8 := 0xFE#8 }.bytes, b = 0xFF#8 := by decide

/-- CalibrationLifecycleMovesForward: a step along each of its three edges. -/
theorem test_witness_lifecycle :
    (∃ t, exec (.calLoadUser rawErased) (small 0#4 .left .empty) = .next t ∧ t.calState = .needFactory) ∧
    (∃ t, exec (.calLoadFactory raw1) (small 0#4 .left .needFactory) = .next t ∧ t.calState = .loaded) ∧
    (∃ t, exec (.calSetDeadzone ⟨0#8, 0#8, 0#8, 1#8, 0#8⟩) (small 0#4 .left .loaded) = .next t ∧
      t.calState = .locked) ∧ Instr.calLoadUser rawErased ≠ .sessionClear :=
  ⟨⟨_, rfl, rfl⟩, ⟨_, rfl, rfl⟩, ⟨_, rfl, rfl⟩, by decide⟩

/-- LockedCalibrationIsImmutable: a command that would write elsewhere, offered while LOCKED. -/
theorem test_witness_locked :
    (∃ t, exec (.setSide 0x2007#16) (leftBank 0#4 .locked 160#8) = .next t) ∧
    Instr.setSide 0x2007#16 ≠ .sessionClear ∧ (leftBank 0#4 .locked 160#8).calState ≠ .empty ∧
    (leftBank 0#4 .locked 160#8).calState = .locked := ⟨⟨_, rfl⟩, by decide⟩

/-- InvalidDirectionInExactlyThreeCases: the centres of V-CLS-11, whose X axis has its centre at 1; the sample (0, 2048)
is outside the deadzone 0 and has a divisor of 0. -/
theorem test_witness_invalid :
    (1 : Int) = ((0#12).toNat : Int) + (((2#12).toNat : Int) - (0#12).toNat) / 2 ∧
    (2048 : Int) = ((leftBank 0#4 .locked 0#8).cy.toNat : Int) +
      (((leftBank 0#4 .locked 0#8).maxy.toNat : Int) - (leftBank 0#4 .locked 0#8).miny.toNat) / 2 ∧
    (((0#8).toNat : Int) ^ 2 < (((0#12).toNat : Int) - 1) ^ 2 + (((2048#12).toNat : Int) - 2048) ^ 2 ∧
      ((1 : Int) - 1 ≤ 0 ∨ (2048 : Int) - 1 ≤ 0)) ∧
    directionOf { leftBank 0#4 .locked 0#8 with cx := 0#12, minx := 0#12, maxx := 2#12 }.toBlock 0#12 2048#12 =
      .invalid := by decide +kernel

/-- CenterExactlyWithinTheDeadzone, and ClassifierIsTheAngleTable but for its angle: the bank of V-CAL-1 and the sample
(4095, 2048), outside the deadzone of 160. -/
theorem test_witness_center :
    (2048 : Int) = ((leftBank 0#4 .locked 160#8).cx.toNat : Int) +
      (((leftBank 0#4 .locked 160#8).maxx.toNat : Int) - (leftBank 0#4 .locked 160#8).minx.toNat) / 2 ∧
    (2048 : Int) = ((leftBank 0#4 .locked 160#8).cy.toNat : Int) +
      (((leftBank 0#4 .locked 160#8).maxy.toNat : Int) - (leftBank 0#4 .locked 160#8).miny.toNat) / 2 ∧
    ¬ ((leftBank 0#4 .locked 160#8).minx = 0#12 ∧ (leftBank 0#4 .locked 160#8).maxx = 0#12) ∧
    ¬ ((leftBank 0#4 .locked 160#8).miny = 0#12 ∧ (leftBank 0#4 .locked 160#8).maxy = 0#12) ∧
    ((leftBank 0#4 .locked 160#8).dz.toNat : Int) ^ 2 <
      (((4095#12).toNat : Int) - 2048) ^ 2 + (((2048#12).toNat : Int) - 2048) ^ 2 ∧
    (0 : Int) < 2048 - 1 := by decide

/-- ClassifierIsTheAngleTable, the angle of the sample of `test_witness_center`: it clamps to (1, 0), whose angle
is 0. -/
theorem test_witness_angle :
    IsAngleOf 0 (min (max ((((4095#12).toNat - 2048 : Int) : ℝ) / ((2048 - 1 : Int) : ℝ)) (-1)) 1)
      (min (max ((((2048#12).toNat - 2048 : Int) : ℝ) / ((2048 - 1 : Int) : ℝ)) (-1)) 1) := by
  refine ⟨le_refl 0, by norm_num, 1, one_pos, ?_, ?_⟩ <;> norm_num

/-- SectorEdgesAreNeverReached: the bank of V-CAL-1 and the sample (4095, 2048), whose offsets clamp to (2047, 0). -/
theorem test_witness_edges :
    (axisOf 2048#12 1500#12 1500#12).lo < (axisOf 2048#12 1500#12 1500#12).hi ∧
    (axisOf 2048#12 1400#12 1400#12).lo < (axisOf 2048#12 1400#12 1400#12).hi ∧
    (2047 : Int) = Word12.int 4095#12 - (axisOf 2048#12 1500#12 1500#12).mid ∧
    (0 : Int) = Word12.int 2048#12 - (axisOf 2048#12 1400#12 1400#12).mid ∧
    ((leftBank 0#4 .locked 160#8).dz.toNat : Int) ^ 2 < 2047 ^ 2 + 0 ^ 2 ∧
    0 < (axisOf 2048#12 1500#12 1500#12).divisor ∧ 0 < (axisOf 2048#12 1400#12 1400#12).divisor ∧
    (2047 : Int) = clampInt 2047 (-(axisOf 2048#12 1500#12 1500#12).divisor)
      (axisOf 2048#12 1500#12 1500#12).divisor ∧
    (0 : Int) = clampInt 0 (-(axisOf 2048#12 1400#12 1400#12).divisor)
      (axisOf 2048#12 1400#12 1400#12).divisor := by decide

/-- SectorEdgesAreNeverReached, the angle of that sample. -/
theorem test_witness_edge_angle :
    IsAngleOf 0 (((2047 : Int) : ℝ) / ((2047 : Int) : ℝ)) (((0 : Int) : ℝ) / ((2047 : Int) : ℝ)) :=
  ⟨le_refl 0, by norm_num, 1, one_pos, by norm_num, by norm_num⟩

/-- ClassifierValuesStayInRange: a bank and a sample at both ends of R181's ranges, the greatest divisor on the X axis and
the lowest centre on the Y axis, which no divisor is positive for; and the greatest divisor on both axes. -/
theorem test_witness_ranges :
    (axisOf 4095#12 0#12 4095#12).mid = 6142 ∧ (axisOf 4095#12 0#12 4095#12).divisor = 6141 ∧
    (axisOf 0#12 4095#12 0#12).mid = -2048 ∧ (-6142 : Int) = Word12.int 0#12 - (axisOf 4095#12 0#12 4095#12).mid ∧
    (6143 : Int) = Word12.int 4095#12 - (axisOf 0#12 4095#12 0#12).mid ∧
    (6141 : Int) ^ 4 = clampInt (-6142) (-(axisOf 4095#12 0#12 4095#12).divisor)
      (axisOf 4095#12 0#12 4095#12).divisor ^ 2 * (axisOf 4095#12 0#12 4095#12).divisor ^ 2 ∧
    0 < (axisOf 4095#12 0#12 4095#12).divisor := by
  norm_num [axisOf, Axis.mid, Axis.divisor, clampInt, Word12.int]

/-- ClassifyAnswersADirection and the direction field of DECODE: V-CLS-2 and V-CLS-1, a sample for each of the nine
directions, with the codes of R75. -/
theorem test_direction_codes :
    (directionOf (leftBank 0#4 .locked 160#8).toBlock 2048#12 2048#12).code = 1#4 ∧
    (directionOf (leftBank 0#4 .locked 160#8).toBlock 2048#12 3000#12).code = 2#4 ∧
    (directionOf (leftBank 0#4 .locked 160#8).toBlock 3000#12 3000#12).code = 3#4 ∧
    (directionOf (leftBank 0#4 .locked 160#8).toBlock 3000#12 2048#12).code = 4#4 ∧
    (directionOf (leftBank 0#4 .locked 160#8).toBlock 3000#12 1000#12).code = 5#4 ∧
    (directionOf (leftBank 0#4 .locked 160#8).toBlock 2048#12 1000#12).code = 6#4 ∧
    (directionOf (leftBank 0#4 .locked 160#8).toBlock 1000#12 1000#12).code = 7#4 ∧
    (directionOf (leftBank 0#4 .locked 160#8).toBlock 1000#12 2048#12).code = 8#4 ∧
    (directionOf (leftBank 0#4 .locked 160#8).toBlock 1000#12 3000#12).code = 9#4 := by decide +kernel

/-- SnapshotDeterminesTheRegisters. -/
theorem test_witness_snapshot :
    (Block.reset 3#4).stream = (Block.reset 3#4).stream ∧
    (Block.reset 3#4).responses = (Block.reset 3#4).responses ∧
    snapWord (Block.reset 3#4) = snapWord (Block.reset 3#4) := by decide

/-- ReservedRowsAnswerIllegalCommand: each of the four rows. -/
theorem test_witness_reserved :
    ∀ i ∈ [Instr.reservedOp0, .reservedOpF, .reservedRo 0#4, .reservedHi 0x20#8],
      i = .reservedOp0 ∨ i = .reservedOpF ∨ i = .reservedRo 0#4 ∨ i = .reservedHi 0x20#8 := by decide

/-- ResetLeavesTheResetValues: the instance served at reset is one of those it speaks of. -/
theorem test_witness_reset : State.reset.toBlock = State.reset.toBlock ∨ State.reset.toBlock ∈ State.reset.peers :=
  .inl rfl

/-- StepKeepsTheInvariant: a locked left half, and a command that writes. -/
theorem test_witness_invariant :
    ((leftBank 0#4 .locked 160#8).present [0x0A#8, 0x12#8, 0x80#8, 0x00#8, 0x00#8, 0xFF#8]).Inv ∧
    ∃ t, step ((leftBank 0#4 .locked 160#8).present [0x0A#8, 0x12#8, 0x80#8, 0x00#8, 0x00#8, 0xFF#8]) = .next t :=
  ⟨by decide, _, rfl⟩

/-- CommandTouchesOnlyItsInstance. -/
theorem test_witness_touches : ∃ t, exec .sessionClear (pair .shared [] [] [.peer 0]) = .next t := ⟨_, rfl⟩

/-- PerInstanceStepIsIsolated: the second of two instances is next. -/
theorem test_witness_isolated :
    (pair .perInstance [] [0x02#8] [.peer 0]).sharing = .perInstance ∧
    (pair .perInstance [] [0x02#8] [.peer 0]).turns = .peer 0 :: [] ∧
    (pair .perInstance [] [0x02#8] [.peer 0]).peers[0]? = some { Block.reset 0#4 with stream := [0x02#8] } ∧
    decode [0x02#8] = .ok (.encodeRumble, []) := by decide

/-- ErrorsLeaveTheRegisters: no error, an error that ends the read, an error that writes nothing, a dropped frame. -/
theorem test_witness_errors :
    (∃ t, exec (.calLoadUser rawErased) (small 0#4 .left .empty) = .next t ∧
      t.responses = (small 0#4 .left .empty).responses ++ [⟨.needFactory, .none⟩] ∧
      Status.isError .needFactory = false) ∧
    (∃ t, exec .flashTimeout (waiting 0#4 9#5) = .next t ∧
      t.responses = (waiting 0#4 9#5).responses ++ [⟨.timeout, .none⟩] ∧ Status.isError .timeout = true ∧
      t.flashPend ≠ (waiting 0#4 9#5).flashPend) ∧
    (∃ t, exec (.flashReq 0#32 1#8) (waiting 0#4 9#5) = .next t ∧
      t.responses = (waiting 0#4 9#5).responses ++ [⟨.flashBusy, .none⟩] ∧ Status.isError .flashBusy = true) ∧
    (∃ t, exec (.flashReply []) (waiting 0#4 9#5) = .next t ∧
      t.responses = (waiting 0#4 9#5).responses ++ [⟨.discarded, .none⟩] ∧ Status.isError .discarded = true ∧
      Status.kind .discarded = .dropped) :=
  ⟨⟨_, rfl, rfl, rfl⟩, ⟨_, rfl, rfl, rfl, by decide⟩, ⟨_, rfl, rfl, rfl⟩, ⟨_, rfl, rfl, rfl, rfl⟩⟩

/-- SharedSeqCountsAllFrames: two instances, two frames. -/
theorem test_witness_shared :
    (pair .shared [0x02#8] [0x02#8] [.served, .peer 0]).sharing = .shared ∧
    ∃ t, Host.Core.run core 2 (pair .shared [0x02#8] [0x02#8] [.served, .peer 0]) = .next t ∧ t.seq = 2#4 :=
  ⟨rfl, _, rfl, rfl⟩

end Sys2Proof.Tests
end

section
/-! PROOFS. How every command ends (00_scope.md R10, 60_exceptions.md R211, R212), that the stream holds commands only
(70_reset_and_hazards.md R255), and the statements of 00_scope.md that follow. -/

namespace Sys2Proof.Machine

/-! ### What a status leaves of the state -/

/-- The state a status other than OK leaves, the response aside (60_exceptions.md R212). -/
def State.afterStatus (s : State) : Status → State
  | .nack | .timeout => { s with flashPend := false }
  | .needFactory => { s with calState := .needFactory }
  | _ => s

/-- An answer that gives exactly one more response, its status one of `allowed`; a status other than OK hands back no
result and leaves `State.afterStatus`. -/
def EndsFrom (s : State) (allowed : List Status) (a : Answer) : Prop :=
  ∃ (t : State) (st : Status) (r : Result), a = .next t ∧ t.responses = s.responses ++ [⟨st, r⟩] ∧ st ∈ allowed ∧
    (st ≠ .ok → r = .none ∧ t = { s.afterStatus st with responses := t.responses })

/-- No status writes an earlier response. -/
@[simp] theorem State.afterStatus_responses (s : State) (st : Status) :
    (s.afterStatus st).responses = s.responses := by
  cases st <;> rfl

/-- An error leaves every register but FLASH_PEND. -/
theorem State.afterStatus_eq_of_isError (s : State) (st : Status) (rs : List Response) (h : st.isError = true) :
    { s.afterStatus st with responses := rs } =
      { s with flashPend := (s.afterStatus st).flashPend, responses := rs } := by
  cases st
  case needFactory => cases h
  all_goals rfl

/-- Only NACK and TIMEOUT change FLASH_PEND. -/
theorem State.afterStatus_flashPend (s : State) (st : Status) :
    (s.afterStatus st).flashPend = s.flashPend ∨ st = .nack ∨ st = .timeout := by
  cases st
  case nack => exact .inr (.inl rfl)
  case timeout => exact .inr (.inr rfl)
  all_goals exact .inl rfl

/-! ### How each command ends -/

/-- Responding OK from a state with the same responses is an allowed end. -/
theorem EndsFrom.respondOk {s : State} {allowed : List Status} (u : State) (r : Result)
    (hst : .ok ∈ allowed) (hu : u.responses = s.responses) : EndsFrom s allowed (u.respond .ok r) :=
  ⟨_, .ok, r, rfl, by rw [hu], hst, fun h => absurd rfl h⟩

/-- Responding with a status and no result from the state that status leaves is an allowed end. -/
theorem EndsFrom.respondStatus {s : State} {allowed : List Status} (st : Status)
    (hst : st ∈ allowed) : EndsFrom s allowed ((s.afterStatus st).respond st .none) :=
  ⟨_, st, .none, rfl, by rw [s.afterStatus_responses], hst, fun _ => ⟨rfl, rfl⟩⟩

theorem buildSubcmd_endsFrom (s : State) (rumble : Rumble8) (sc : Byte) (pay : List Byte) :
    EndsFrom s [.ok, .payloadTooLarge] (s.buildSubcmd rumble sc pay) := by
  by_cases h : pay.length ≤ 38
  · rw [s.buildSubcmd_fits rumble sc pay h]
    exact .respondOk _ _ (by decide) rfl
  · rw [s.buildSubcmd_tooLarge rumble sc pay (by omega)]
    exact .respondStatus .payloadTooLarge (by decide)

theorem execDecode_endsFrom (frame : List Byte) (s : State) :
    EndsFrom s [.ok, .unknownSide, .truncated, .unsupportedReport] (execDecode frame s) := by
  unfold execDecode
  split
  · exact .respondStatus .unknownSide (by decide)
  · split_ifs with hshort hrid
    · exact .respondStatus .truncated (by decide)
    · exact .respondOk _ _ (by decide) rfl
    · exact .respondStatus .unsupportedReport (by decide)

theorem execSetSide_endsFrom (pid : BitVec 16) (s : State) :
    EndsFrom s [.ok, .sequenceError, .unknownSide] (execSetSide pid s) := by
  unfold execSetSide
  split_ifs
  · exact .respondStatus .sequenceError (by decide)
  · split
    · exact .respondStatus .unknownSide (by decide)
    · exact .respondOk _ _ (by decide) rfl

theorem execCalLoadUser_endsFrom (raw : Raw9) (s : State) :
    EndsFrom s [.ok, .unknownSide, .sequenceError, .needFactory] (execCalLoadUser raw s) := by
  unfold execCalLoadUser
  split
  · exact .respondStatus .unknownSide (by decide)
  · split_ifs with haccepts herased
    · exact .respondStatus .needFactory (by decide)
    · exact .respondOk _ _ (by decide) rfl
    · exact .respondStatus .sequenceError (by decide)

theorem execCalLoadFactory_endsFrom (raw : Raw9) (s : State) :
    EndsFrom s [.ok, .unknownSide, .sequenceError] (execCalLoadFactory raw s) := by
  unfold execCalLoadFactory
  split
  · exact .respondStatus .unknownSide (by decide)
  · split_ifs with haccepts
    · exact .respondOk _ _ (by decide) rfl
    · exact .respondStatus .sequenceError (by decide)

theorem execCalSetDeadzone_endsFrom (params : Params5) (s : State) :
    EndsFrom s [.ok, .sequenceError] (execCalSetDeadzone params s) := by
  unfold execCalSetDeadzone
  split_ifs
  · exact .respondStatus .sequenceError (by decide)
  · exact .respondOk _ _ (by decide) rfl

theorem execUnmarshal_endsFrom (raw : Raw9) (s : State) :
    EndsFrom s [.ok, .unknownSide] (execUnmarshal raw s) := by
  unfold execUnmarshal
  split
  · exact .respondStatus .unknownSide (by decide)
  · exact .respondOk _ _ (by decide) rfl

theorem execFlashReq_endsFrom (addr : BitVec 32) (size : Byte) (s : State) :
    EndsFrom s [.ok, .flashBusy] (execFlashReq addr size s) := by
  unfold execFlashReq
  split_ifs
  · exact .respondStatus .flashBusy (by decide)
  · exact .respondOk _ _ (by decide) rfl

theorem execFlashReply_endsFrom (frame : List Byte) (s : State) :
    EndsFrom s [.ok, .noPendingRead, .discarded, .nack] (execFlashReply frame s) := by
  unfold execFlashReply
  split_ifs with hpend hshort hmatch hack
  · exact .respondStatus .discarded (by decide)
  · exact .respondOk _ _ (by decide) rfl
  · exact .respondStatus .nack (by decide)
  · exact .respondStatus .discarded (by decide)
  · exact .respondStatus .noPendingRead (by decide)

theorem execFlashTimeout_endsFrom (s : State) :
    EndsFrom s [.noPendingRead, .timeout] (execFlashTimeout s) := by
  unfold execFlashTimeout
  split_ifs with hpend
  · exact .respondStatus .timeout (by decide)
  · exact .respondStatus .noPendingRead (by decide)

/-- A reserved descriptor ends in ILLEGAL_COMMAND (44_control.md R202). -/
theorem illegal_endsFrom (s : State) : EndsFrom s [.illegalCommand] s.illegal :=
  .respondStatus .illegalCommand (by decide)

/-- Every command ends in one response with a status of its row of the cause table, and the status decides what is
written (60_exceptions.md R211, R212). -/
theorem exec_endsFrom (i : Instr) (s : State) (h : i.isCommand = true) :
    EndsFrom s (mayReturn i) (exec i s) := by
  cases i with
  | encodeSubcmd sc pay => exact buildSubcmd_endsFrom s _ sc pay
  | encodeSubcmdRo sc rumble pay => exact buildSubcmd_endsFrom s rumble sc pay
  | encodeRumble => exact .respondOk s.seqAdvance _ (by decide) rfl
  | decode frame => exact execDecode_endsFrom frame s
  | setSide pid => exact execSetSide_endsFrom pid s
  | calLoadUser raw => exact execCalLoadUser_endsFrom raw s
  | calLoadFactory raw => exact execCalLoadFactory_endsFrom raw s
  | calSetDeadzone params => exact execCalSetDeadzone_endsFrom params s
  | classify hor ver => exact .respondOk s _ (List.mem_singleton_self _) rfl
  | unmarshal raw => exact execUnmarshal_endsFrom raw s
  | flashReq addr size => exact execFlashReq_endsFrom addr size s
  | flashReply frame => exact execFlashReply_endsFrom frame s
  | flashTimeout => exact execFlashTimeout_endsFrom s
  | readState => exact .respondOk s _ (by decide) rfl
  | sessionClear => exact .respondOk s.clearSession _ (by decide) rfl
  | reservedOp0 | reservedOpF | reservedRo _ | reservedHi _ => exact illegal_endsFrom s
  | wireOutSubcmd _ | wireOutRumble _ | wireInStdReply _ | wireInStdFull _ | wireInNfcIr _ => cases h

/-- Only a command answers a next state; a frame kind of the wire is refused (70_reset_and_hazards.md R255). -/
theorem isCommand_of_exec_next (i : Instr) (s t : State) (h : exec i s = .next t) : i.isCommand = true := by
  cases i
  case wireOutSubcmd | wireOutRumble | wireInStdReply | wireInStdFull | wireInNfcIr => cases h
  all_goals rfl

/-- What an instruction that answered a next state and gave a response did: the status is one of its row, and any
status but OK hands back no result and leaves `State.afterStatus`. -/
theorem exec_next_response (i : Instr) (s t : State) (st : Status) (r : Result)
    (h : exec i s = .next t) (hresp : t.responses = s.responses ++ [⟨st, r⟩]) :
    st ∈ mayReturn i ∧ (st ≠ .ok → r = .none ∧ t = { s.afterStatus st with responses := t.responses }) := by
  obtain ⟨t', st', r', hexec, hresp', hst, hleft⟩ := exec_endsFrom i s (isCommand_of_exec_next i s t h)
  obtain rfl : t = t' := Host.Outcome.next.inj (h.symm.trans hexec)
  have hsame : [(⟨st, r⟩ : Response)] = [⟨st', r'⟩] := List.append_cancel_left (hresp.symm.trans hresp')
  simp only [List.cons.injEq, Response.mk.injEq, and_true] at hsame
  obtain ⟨rfl, rfl⟩ := hsame
  exact ⟨hst, hleft⟩

/-! ### The command stream holds commands only -/

/-- Whatever `d` decodes is a command and not a frame kind of the wire. -/
def DecodesCommands (d : Decoded) : Prop :=
  ∀ (i : Instr) (rest : List Byte), d = .ok (i, rest) → i.isCommand = true

theorem decodesCommands_ok (i : Instr) (rest : List Byte) (h : i.isCommand = true) :
    DecodesCommands (.ok (i, rest)) := by
  rintro _ _ ⟨⟩
  exact h

/-- Operands that are not all there decode to nothing (60_exceptions.md R225). -/
theorem decodesCommands_orIncomplete_none (mnemonic : String) :
    DecodesCommands (orIncomplete mnemonic none) :=
  nofun

/-- Operands all read decode to the command built from them. -/
theorem decodesCommands_orIncomplete_map {α : Type} (mnemonic : String) (o : Option α)
    (build : α → Instr × List Byte) (h : ∀ x, (build x).1.isCommand = true) :
    DecodesCommands (orIncomplete mnemonic (o.map build)) := by
  cases o with
  | none => exact decodesCommands_orIncomplete_none mnemonic
  | some x => exact decodesCommands_ok _ _ (h x)

theorem decodesCommands_encodeSubcmd (bytes : List Byte) :
    DecodesCommands (orIncomplete "ENCODE_SUBCMD" (readEncodeSubcmd bytes)) := by
  cases bytes with
  | nil => exact decodesCommands_orIncomplete_none _
  | cons subcmd operands => exact decodesCommands_orIncomplete_map _ _ _ fun _ => rfl

theorem decodesCommands_encodeSubcmdRo (bytes : List Byte) :
    DecodesCommands (orIncomplete "ENCODE_SUBCMD.RO" (readEncodeSubcmdRo bytes)) := by
  unfold readEncodeSubcmdRo
  split
  · exact decodesCommands_orIncomplete_map _ _ _ fun _ => rfl
  · exact decodesCommands_orIncomplete_none _

theorem decodesCommands_setSide (bytes : List Byte) :
    DecodesCommands (orIncomplete "SET_SIDE" (readSetSide bytes)) := by
  unfold readSetSide
  split
  · exact decodesCommands_ok _ _ rfl
  · exact decodesCommands_orIncomplete_none _

theorem decodesCommands_classify (bytes : List Byte) :
    DecodesCommands (orIncomplete "CLASSIFY" (readClassify bytes)) := by
  unfold readClassify
  split
  · exact decodesCommands_ok _ _ rfl
  · exact decodesCommands_orIncomplete_none _

theorem decodesCommands_flashReq (bytes : List Byte) :
    DecodesCommands (orIncomplete "FLASH_REQ" (readFlashReq bytes)) := by
  unfold readFlashReq
  split
  · exact decodesCommands_ok _ _ rfl
  · exact decodesCommands_orIncomplete_none _

/-- OP with RO = 0 selects a command or a reserved row (30_encoding.md R61); case `h_n` is OP = n - 1. -/
theorem decodesCommands_decodeOp (op : Nat) (bytes : List Byte) : DecodesCommands (decodeOp op bytes) := by
  unfold decodeOp
  split
  case h_2 => exact decodesCommands_encodeSubcmd bytes
  case h_5 => exact decodesCommands_setSide bytes
  case h_9 => exact decodesCommands_classify bytes
  case h_11 => exact decodesCommands_flashReq bytes
  case h_4 | h_6 | h_7 | h_8 | h_10 | h_12 => exact decodesCommands_orIncomplete_map _ _ _ fun _ => rfl
  all_goals exact decodesCommands_ok _ _ rfl

/-- The command stream carries commands and reserved descriptors only: no frame kind of the wire is decoded. -/
theorem decodesCommands_decode (bytes : List Byte) : DecodesCommands (decode bytes) := by
  cases bytes with
  | nil => nofun
  | cons cmd operands =>
    simp only [decode, decodeDescriptor]
    split_ifs
    · exact decodesCommands_ok _ _ rfl
    · exact decodesCommands_encodeSubcmdRo operands
    · exact decodesCommands_ok _ _ rfl
    · exact decodesCommands_decodeOp _ operands

/-! ### The step -/

/-- With no command at the served port a step waits. -/
theorem step_of_reject (s : State) (e : Reject) (h : decode s.takeTurn.stream = .error e) :
    step s = .next s.takeTurn := by
  simp only [step, State.fetch, h]

/-- Settles O8: a fetch is the decoder's answer with the consumed bytes gone, and a step executes what it fetched. -/
theorem stepRunsTheDecodedCommand : Obligations.StepRunsTheDecodedCommand := by
  intro s i rest h
  have hfetch : s.takeTurn.fetch = some (i, { s.takeTurn with stream := rest }) :=
    (State.fetch_eq_some _ _ _).2 ⟨rest, h, rfl⟩
  simp only [step, hfetch]

/-- Settles O11: each command's end is one of its row. -/
theorem everyCommandGivesOneAllowedResponse : Obligations.EveryCommandGivesOneAllowedResponse := by
  intro i s h
  obtain ⟨t, st, r, hexec, hresp, hst, -⟩ := exec_endsFrom i s h
  exact ⟨t, st, r, hexec, hresp, hst⟩

/-- Settles O10: a step waits or executes a decoded row, which is a command and so answers a next state. -/
theorem everyStepAnswersANextState : Obligations.EveryStepAnswersANextState := by
  intro s
  cases h : decode s.takeTurn.stream with
  | error e => exact ⟨_, step_of_reject s e h⟩
  | ok read =>
    obtain ⟨i, rest⟩ := read
    obtain ⟨t, -, -, hexec, -⟩ := everyCommandGivesOneAllowedResponse i { s.takeTurn with stream := rest }
      (decodesCommands_decode _ i rest h)
    exact ⟨t, (stepRunsTheDecodedCommand s i rest h).trans hexec⟩

/-- Settles O56: the response decides the status, and the status decides what is written. -/
theorem errorsLeaveTheRegisters : Obligations.ErrorsLeaveTheRegisters := by
  intro i s t st r hexec hresp
  obtain ⟨-, hleft⟩ := exec_next_response i s t st r hexec hresp
  refine ⟨fun hsuccess => ?_, fun herror => ?_⟩
  · rcases (Status.isError_eq_false_iff st).1 hsuccess with rfl | rfl
    · exact .inl rfl
    · exact .inr ⟨rfl, (hleft (by decide)).1⟩
  · obtain ⟨hnone, ht⟩ := hleft (by rintro rfl; cases herror)
    have hpend : t.flashPend = (s.afterStatus st).flashPend := by rw [ht]
    refine ⟨hnone, ?_, fun hchanged => ?_, fun hdropped => ?_⟩
    · rw [hpend]
      exact ht.trans (s.afterStatus_eq_of_isError st t.responses herror)
    · exact (s.afterStatus_flashPend st).resolve_left (hpend ▸ hchanged)
    · obtain rfl := (Status.kind_eq_dropped_iff st).1 hdropped
      exact ⟨rfl, hpend⟩

end Sys2Proof.Machine
end

section
/-! PROOFS. What a command can do to the registers of its block (10_state.md R20 to R29), said once as the relation
`Effect`, and the statements about the state, its invariant and the instances of the system that follow from it. -/

namespace Sys2Proof.Machine

/-! ### The environment of a command -/

/-- What stands in the state beside the registers of the served block. -/
structure Environment where
  stream : List Byte
  responses : List Response
  peers : List Block
  turns : List Turn
  sharing : SeqSharing

/-- The environment of a state. -/
abbrev State.env (s : State) : Environment := ⟨s.stream, s.responses, s.peers, s.turns, s.sharing⟩

/-- The registers of a state in another environment. -/
abbrev State.inEnv (s : State) (e : Environment) : State :=
  { s with stream := e.stream, responses := e.responses, peers := e.peers, turns := e.turns, sharing := e.sharing }

/-! ### What a command can do -/

/-- A command and its response end the pending flash read (41_flash.md R122, R125). -/
def EndsRead (i : Instr) (r : Response) : Prop :=
  (∃ f d, i = .flashReply f ∧ r = ⟨.ok, .data d⟩) ∨ (∃ f, i = .flashReply f ∧ r = ⟨.nack, .none⟩) ∨
    (i = .flashTimeout ∧ r = ⟨.timeout, .none⟩)

/-- `Effect s i u r`: the command `i` in the state `s` leaves the registers of `u` and gives the response `r`. One
constructor for each way the registers are written, with the condition under which a command writes them so. -/
inductive Effect (s : State) : Instr → State → Response → Prop
  /-- No register is written, and no frame is built. -/
  | reply (i : Instr) (r : Response) (hr : r.isFrame = false) : Effect s i s r
  /-- A frame is built with the sequence number, and nothing but SEQ is written (40_framer.md R101, R102). -/
  | frame (i : Instr) (f : List Byte) (hf : f[1]? = some (s.seq.setWidth 8)) :
    Effect s i s.seqAdvance ⟨.ok, .frame f⟩
  /-- A flash read begins (41_flash.md R121). -/
  | request (addr : BitVec 32) (size : Byte) (sz : BitVec 5) (f : List Byte) (hidle : s.flashPend = false)
    (hsz : sz.toNat ≤ 29) (hf : f[1]? = some (s.seq.setWidth 8)) :
    Effect s (.flashReq addr size) { s.seqAdvance with flashPend := true, flashSize := sz } ⟨.ok, .frame f⟩
  /-- The pending flash read ends (41_flash.md R122, R125). -/
  | endRead (i : Instr) (r : Response) (hpend : s.flashPend = true) (hend : EndsRead i r) :
     Effect s i { s with flashPend := false } r
  /-- A controller half is selected (43_calibration.md R160). -/
  | select (pid : BitVec 16) (side : Side) (hempty : s.calState = .empty) (hside : side ≠ .unset) :
    Effect s (.setSide pid) { s with side := side } ⟨.ok, .none⟩
  /-- An erased user section asks for the factory one (43_calibration.md R163). -/
  | askFactory (raw : Raw9) (hside : s.side ≠ .unset) (haccepts : s.calState.acceptsLoad = true) :
    Effect s (.calLoadUser raw) { s with calState := .needFactory } ⟨.needFactory, .none⟩
  /-- A calibration section is loaded (43_calibration.md R163, R165). -/
  | load (i : Instr) (bank : CalBank) (hside : s.side ≠ .unset) (haccepts : s.calState.acceptsLoad = true) :
    Effect s i (s.loadBank bank) ⟨.ok, .none⟩
  /-- The deadzone is attached and the calibration locked (43_calibration.md R166). -/
  | lock (params : Params5) (hloaded : s.calState = .loaded) :
    Effect s (.calSetDeadzone params) { s with dz := deadzoneOf params, calState := .locked } ⟨.ok, .none⟩
  /-- The session is cleared (44_control.md R201). -/
  | clear : Effect s .sessionClear s.clearSession ⟨.ok, .none⟩

/-- No effect is on the environment. -/
theorem Effect.env_eq {s u : State} {i : Instr} {r : Response} (h : Effect s i u r) : u.env = s.env := by
  cases h <;> rfl

/-- The command has one effect in the state, whatever the environment. -/
def Acts (s : State) (i : Instr) : Prop :=
  ∃ (u : State) (r : Response), Effect s i u r ∧
    ∀ e : Environment, exec i (s.inEnv e) = (u.inEnv e).respond r.status r.result

/-- A command that only responds, with anything but a frame, acts. -/
theorem Acts.of_respond {s : State} {i : Instr} (st : Status) (r : Result)
    (hr : Response.isFrame ⟨st, r⟩ = false) (h : ∀ e, exec i (s.inEnv e) = (s.inEnv e).respond st r) : Acts s i :=
  ⟨s, ⟨st, r⟩, .reply i _ hr, h⟩

/-- A command that is rejected acts. -/
theorem Acts.of_raise {s : State} {i : Instr} (st : Status)
    (h : ∀ e, exec i (s.inEnv e) = (s.inEnv e).raise st) : Acts s i :=
  .of_respond st .none (by cases st <;> rfl) h

/-- A half is selected only while a side is set. -/
theorem Side.ne_unset_of_half {side : Side} {half : Half} (h : side.half = some half) : side ≠ .unset := by
  rintro rfl
  cases h

/-- A product id selects a half. -/
theorem sideOfPid_ne_unset {pid : BitVec 16} {side : Side} (h : sideOfPid pid = some side) : side ≠ .unset := by
  rintro rfl
  unfold sideOfPid at h
  split_ifs at h <;> cases h

/-- A flash read is clamped to 29 bytes (10_state.md R27). -/
theorem clampedSize_toNat_le (size : Byte) : (BitVec.ofNat 5 (clampedSize size)).toNat ≤ 29 := by
  rw [BitVec.toNat_ofNat, clampedSize, Config.maxFlashRead]
  omega

theorem buildSubcmd_acts (s : State) (i : Instr) (rumble : Rumble8) (sc : Byte) (pay : List Byte)
    (h : ∀ t, exec i t = t.buildSubcmd rumble sc pay) : Acts s i := by
  by_cases hfits : pay.length ≤ 38
  · exact ⟨_, _, .frame i (subcmdFrame s.seq rumble sc pay) rfl, fun e =>
      (h _).trans ((s.inEnv e).buildSubcmd_fits rumble sc pay hfits)⟩
  · exact .of_raise .payloadTooLarge fun e =>
      (h _).trans ((s.inEnv e).buildSubcmd_tooLarge rumble sc pay (by omega))

theorem decode_acts (frame : List Byte) (s : State) : Acts s (.decode frame) := by
  cases hhalf : s.side.half with
  | none => exact .of_raise .unknownSide fun e => by simp only [exec, execDecode, hhalf]
  | some half =>
    by_cases hshort : frame.length < Config.reportLen
    · exact .of_raise .truncated fun e => by simp only [exec, execDecode, hhalf, if_pos hshort]
    · by_cases hid : isReportId (frameByte frame 0) = true
      · exact .of_respond .ok (.deviceStatus (deviceStatus s.toBlock half frame).word) rfl fun e => by
          simp only [exec, execDecode, hhalf, if_neg hshort, if_neg (not_not.2 hid)]
          rfl
      · exact .of_raise .unsupportedReport fun e => by
          simp only [exec, execDecode, hhalf, if_neg hshort, if_pos hid]

theorem setSide_acts (pid : BitVec 16) (s : State) : Acts s (.setSide pid) := by
  by_cases hempty : s.calState = .empty
  · cases hpid : sideOfPid pid with
    | none =>
      exact .of_raise .unknownSide fun e => by simp only [exec, execSetSide, if_neg (not_not.2 hempty), hpid]
    | some side =>
      exact ⟨_, _, .select pid side hempty (sideOfPid_ne_unset hpid), fun e => by
        simp only [exec, execSetSide, if_neg (not_not.2 hempty), hpid]⟩
  · exact .of_raise .sequenceError fun e => by simp only [exec, execSetSide, if_pos hempty]

theorem calLoadUser_acts (raw : Raw9) (s : State) : Acts s (.calLoadUser raw) := by
  cases hhalf : s.side.half with
  | none => exact .of_raise .unknownSide fun e => by simp only [exec, execCalLoadUser, hhalf]
  | some half =>
    have hside := Side.ne_unset_of_half hhalf
    by_cases haccepts : s.calState.acceptsLoad = true
    · by_cases herased : all255 raw = true
      · exact ⟨_, _, .askFactory raw hside haccepts, fun e => by
          simp only [exec, execCalLoadUser, hhalf, if_neg (not_not.2 haccepts), if_pos herased]⟩
      · exact ⟨_, _, .load _ (unmarshal raw half) hside haccepts, fun e => by
          simp only [exec, execCalLoadUser, hhalf, if_neg (not_not.2 haccepts), if_neg herased]
          rfl⟩
    · exact .of_raise .sequenceError fun e => by simp only [exec, execCalLoadUser, hhalf, if_pos haccepts]

theorem calLoadFactory_acts (raw : Raw9) (s : State) : Acts s (.calLoadFactory raw) := by
  cases hhalf : s.side.half with
  | none => exact .of_raise .unknownSide fun e => by simp only [exec, execCalLoadFactory, hhalf]
  | some half =>
    by_cases haccepts : s.calState.acceptsLoad = true
    · exact ⟨_, _, .load _ (unmarshal raw half) (Side.ne_unset_of_half hhalf) haccepts, fun e => by
        simp only [exec, execCalLoadFactory, hhalf, if_neg (not_not.2 haccepts)]
        rfl⟩
    · exact .of_raise .sequenceError fun e => by simp only [exec, execCalLoadFactory, hhalf, if_pos haccepts]

theorem calSetDeadzone_acts (params : Params5) (s : State) : Acts s (.calSetDeadzone params) := by
  by_cases hloaded : s.calState = .loaded
  · exact ⟨_, _, .lock params hloaded, fun e => if_neg (not_not.2 hloaded)⟩
  · exact .of_raise .sequenceError fun e => if_pos hloaded

theorem unmarshal_acts (raw : Raw9) (s : State) : Acts s (.unmarshal raw) := by
  cases hhalf : s.side.half with
  | none => exact .of_raise .unknownSide fun e => by simp only [exec, execUnmarshal, hhalf]
  | some half =>
    exact .of_respond .ok (.calibration (unmarshal raw half).word) rfl fun e => by
      simp only [exec, execUnmarshal, hhalf]

theorem flashReq_acts (addr : BitVec 32) (size : Byte) (s : State) : Acts s (.flashReq addr size) := by
  by_cases hpend : s.flashPend = true
  · exact .of_raise .flashBusy fun e => if_pos hpend
  · exact ⟨_, _, .request addr size _
      (subcmdFrame s.seq rumbleNeutral Config.subcmdFlashRead (flashPayload addr size))
      (Bool.eq_false_of_not_eq_true hpend) (clampedSize_toNat_le size) rfl, fun e => if_neg hpend⟩

theorem flashReply_acts (frame : List Byte) (s : State) : Acts s (.flashReply frame) := by
  by_cases hpend : s.flashPend = true
  · by_cases hshort : frame.length < Config.reportLen
    · exact .of_raise .discarded fun e => by
        simp only [exec, execFlashReply, if_neg (not_not.2 hpend), if_pos hshort]
    · by_cases hmatch : isFlashReply frame = true
      · by_cases hack : replyAck frame = true
        · exact ⟨_, ⟨.ok, .data (replyData frame s.flashSize.toNat)⟩, .endRead _ _ hpend
            (.inl ⟨frame, _, rfl, rfl⟩), fun e => by
              simp only [exec, execFlashReply, if_neg (not_not.2 hpend), if_neg hshort, if_neg (not_not.2 hmatch),
                if_neg (not_not.2 hack)]⟩
        · exact ⟨_, _, .endRead _ ⟨.nack, .none⟩ hpend (.inr (.inl ⟨frame, rfl, rfl⟩)), fun e => by
            simp only [exec, execFlashReply, if_neg (not_not.2 hpend), if_neg hshort, if_neg (not_not.2 hmatch),
              if_pos hack, State.raise_eq]⟩
      · exact .of_raise .discarded fun e => by
          simp only [exec, execFlashReply, if_neg (not_not.2 hpend), if_neg hshort, if_pos hmatch]
  · exact .of_raise .noPendingRead fun e => if_pos hpend

theorem flashTimeout_acts (s : State) : Acts s .flashTimeout := by
  by_cases hpend : s.flashPend = true
  · exact ⟨_, _, .endRead _ ⟨.timeout, .none⟩ hpend (.inr (.inr ⟨rfl, rfl⟩)), fun e =>
      if_neg (not_not.2 hpend)⟩
  · exact .of_raise .noPendingRead fun e => if_pos hpend

/-- Every command has one of the effects, the same in every environment. -/
theorem exec_acts (i : Instr) (s : State) (h : i.isCommand = true) : Acts s i := by
  cases i with
  | encodeSubcmd sc pay => exact buildSubcmd_acts s _ rumbleNeutral sc pay fun _ => rfl
  | encodeSubcmdRo sc rumble pay => exact buildSubcmd_acts s _ rumble sc pay fun _ => rfl
  | encodeRumble => exact ⟨_, _, .frame _ (rumbleFrame s.seq) rfl, fun _ => rfl⟩
  | decode frame => exact decode_acts frame s
  | setSide pid => exact setSide_acts pid s
  | calLoadUser raw => exact calLoadUser_acts raw s
  | calLoadFactory raw => exact calLoadFactory_acts raw s
  | calSetDeadzone params => exact calSetDeadzone_acts params s
  | classify hor ver => exact .of_respond .ok (.direction (directionOf s.toBlock hor ver).code) rfl fun _ => rfl
  | unmarshal raw => exact unmarshal_acts raw s
  | flashReq addr size => exact flashReq_acts addr size s
  | flashReply frame => exact flashReply_acts frame s
  | flashTimeout => exact flashTimeout_acts s
  | readState => exact .of_respond .ok (.snapshot (snapWord s.toBlock)) rfl fun _ => rfl
  | sessionClear => exact ⟨_, _, .clear, fun _ => rfl⟩
  | reservedOp0 | reservedOpF | reservedRo _ | reservedHi _ => exact .of_raise .illegalCommand fun _ => rfl
  | wireOutSubcmd _ | wireOutRumble _ | wireInStdReply _ | wireInStdFull _ | wireInNfcIr _ => cases h

/-- What an instruction that answered a next state did: one of the effects, and the same in every environment. -/
theorem exec_next_effect {i : Instr} {s t : State} (h : exec i s = .next t) :
    ∃ (u : State) (r : Response), Effect s i u r ∧ t = { u with responses := s.responses ++ [r] } ∧
      ∀ e : Environment, exec i (s.inEnv e) = (u.inEnv e).respond r.status r.result := by
  obtain ⟨u, r, heff, hact⟩ := exec_acts i s (isCommand_of_exec_next i s t h)
  have hu : exec i s = (u.inEnv s.env).respond r.status r.result := hact s.env
  rw [h, ← heff.env_eq] at hu
  have hresp : u.responses = s.responses := congrArg Environment.responses heff.env_eq
  refine ⟨u, r, heff, ?_, hact⟩
  rw [← hresp]
  exact Host.Outcome.next.inj hu

/-- A command leaves the other instances, the parameter SEQ_SHARING, the turns and the bytes still at the port. -/
theorem exec_frame {i : Instr} {s t : State} (h : exec i s = .next t) :
    t.peers = s.peers ∧ t.sharing = s.sharing ∧ t.turns = s.turns ∧ t.stream = s.stream := by
  obtain ⟨u, r, heff, rfl, -⟩ := exec_next_effect h
  have henv := heff.env_eq
  simp only [Environment.mk.injEq] at henv
  obtain ⟨hstream, -, hpeers, hturns, hsharing⟩ := henv
  exact ⟨hpeers, hsharing, hturns, hstream⟩

/-! ### One command -/

/-- Settles O14: the effect is the same in every environment. -/
theorem outcomeDependsOnRegistersAlone : Obligations.OutcomeDependsOnRegistersAlone := by
  intro i s t stream responses peers turns sharing r hexec hresp
  obtain ⟨u, r', -, rfl, hact⟩ := exec_next_effect hexec
  obtain rfl : r = r' := by simpa using hresp.symm
  exact hact ⟨stream, responses, peers, turns, sharing⟩

/-- SEQ and the sequence number a frame carries, as numbers. -/
theorem seqAdvance_and_frame {q : BitVec 4} {f : List Byte} (hf : f[1]? = some (q.setWidth 8)) :
    (q + 1#4).toNat = (q.toNat + 1) % 16 ∧ f[1]?.map BitVec.toNat = some q.toNat := by
  refine ⟨BitVec.toNat_add q 1#4, ?_⟩
  rw [hf, Option.map_some, seqByte_toNat]

/-- Settles O18: the two effects that build a frame advance SEQ, and the others leave it. -/
theorem seqAdvancesExactlyWithAFrame : Obligations.SeqAdvancesExactlyWithAFrame := by
  intro i s t hexec
  obtain ⟨u, r, heff, rfl, -⟩ := exec_next_effect hexec
  cases heff with
  | reply _ _ hr => exact .inl ⟨rfl, r, rfl, hr⟩
  | frame _ f hf | request _ _ _ f _ _ hf =>
    obtain ⟨hseq, hframe⟩ := seqAdvance_and_frame hf
    exact .inr ⟨hseq, f, rfl, hframe⟩
  | endRead _ _ _ hend =>
    refine .inl ⟨rfl, r, rfl, ?_⟩
    obtain ⟨f, d, -, rfl⟩ | ⟨f, -, rfl⟩ | ⟨-, rfl⟩ := hend <;> rfl
  | select | askFactory | load | lock | clear => exact .inl ⟨rfl, _, rfl, rfl⟩

/-- Settles O26: one effect sets FLASH_PEND, two clear it. -/
theorem pendingReadEndsOnlyByItsOutcomes : Obligations.PendingReadEndsOnlyByItsOutcomes := by
  intro i s t hexec
  obtain ⟨u, r, heff, rfl, -⟩ := exec_next_effect hexec
  cases heff with
  | request addr size _ f =>
    exact ⟨fun _ _ => ⟨⟨addr, size, rfl⟩, f, rfl⟩, fun _ hended => (nomatch hended)⟩
  | endRead _ _ _ hend =>
    refine ⟨fun _ hbegan => (nomatch hbegan), fun _ _ => ?_⟩
    obtain ⟨f, d, rfl, rfl⟩ | ⟨f, rfl, rfl⟩ | ⟨rfl, rfl⟩ := hend
    · exact .inl ⟨f, d, rfl, rfl⟩
    · exact .inr (.inl ⟨f, rfl, rfl⟩)
    · exact .inr (.inr (.inl ⟨rfl, rfl⟩))
  | clear => exact ⟨fun _ hbegan => (nomatch hbegan), fun _ _ => .inr (.inr (.inr rfl))⟩
  | reply | frame | select | askFactory | load | lock =>
    exact ⟨fun hidle hbegan => (nomatch hidle.symm.trans hbegan),
      fun hpend hended => (nomatch hpend.symm.trans hended)⟩

/-- A section may be loaded in EMPTY and NEED_FACTORY only (43_calibration.md R163, R165). -/
theorem CalState.acceptsLoad_iff (c : CalState) : c.acceptsLoad = true ↔ c = .empty ∨ c = .needFactory := by
  cases c <;> decide

/-- A LOCKED calibration accepts no section (43_calibration.md R163, R165). -/
theorem ne_locked_of_acceptsLoad {c : CalState} (h : c.acceptsLoad = true) : c ≠ .locked := by
  rintro rfl
  cases h

/-- Settles O37: three effects move CAL_STATE, each from the states in which its command is legal. -/
theorem calibrationLifecycleMovesForward : Obligations.CalibrationLifecycleMovesForward := by
  intro i s t hexec hclear hmoved
  obtain ⟨u, r, heff, rfl, -⟩ := exec_next_effect hexec
  cases heff with
  | askFactory _ _ haccepts =>
    obtain hempty | hneed := s.calState.acceptsLoad_iff.1 haccepts
    · exact .inl ⟨hempty, .inl rfl⟩
    · exact absurd hneed.symm hmoved
  | load _ _ _ haccepts =>
    obtain hempty | hneed := s.calState.acceptsLoad_iff.1 haccepts
    · exact .inl ⟨hempty, .inr rfl⟩
    · exact .inr (.inl ⟨hneed, rfl⟩)
  | lock _ hloaded => exact .inr (.inr ⟨hloaded, rfl⟩)
  | clear => exact absurd rfl hclear
  | reply | frame | request | endRead | select => exact absurd rfl hmoved

/-- Settles O38: the side is written in EMPTY only, and the bank, the deadzone and CAL_STATE before LOCKED only. -/
theorem lockedCalibrationIsImmutable : Obligations.LockedCalibrationIsImmutable := by
  intro i s t hexec hclear
  obtain ⟨u, r, heff, rfl, -⟩ := exec_next_effect hexec
  cases heff with
  | select _ _ hempty =>
    exact ⟨fun hoffered => absurd hempty hoffered, fun hlocked => nomatch hempty.symm.trans hlocked⟩
  | askFactory _ _ haccepts | load _ _ _ haccepts =>
    exact ⟨fun _ => rfl, fun hlocked => absurd hlocked (ne_locked_of_acceptsLoad haccepts)⟩
  | lock _ hloaded => exact ⟨fun _ => rfl, fun hlocked => nomatch hloaded.symm.trans hlocked⟩
  | clear => exact absurd rfl hclear
  | reply | frame | request | endRead =>
    exact ⟨fun _ => rfl, fun hlocked => ⟨hlocked, rfl, rfl, rfl, rfl, rfl, rfl, rfl⟩⟩

/-- Bit 7 of a byte is set from 128 on. -/
theorem getLsbD_seven_of_le {b : Byte} (h : 128 ≤ b.toNat) : b.getLsbD 7 = true := by
  have := b.isLt
  rw [BitVec.getLsbD, Nat.testBit_eq_decide_div_mod_eq, decide_eq_true_eq]
  omega

/-- The data of a reply that reaches past them are that many bytes, from byte 20 on (41_flash.md R122). -/
theorem replyData_spec {frame : List Byte} {size : Nat} (h : 20 + size ≤ frame.length) :
    (replyData frame size).length = size ∧ ∀ k, k < size → (replyData frame size)[k]? = frame[20 + k]? := by
  constructor
  · simp only [replyData, Config.dataPos, List.length_take, List.length_drop]
    omega
  · intro k hk
    simp only [replyData, Config.dataPos, List.getElem?_take_of_lt hk, List.getElem?_drop]

/-- Settles O24: a match with its acknowledge bit set passes every check. -/
theorem flashReplyReturnsTheData : Obligations.FlashReplyReturnsTheData := by
  intro s frame ack hpend hsize hlength hid hecho hack hset
  have hshort : ¬ frame.length < Config.reportLen := Nat.not_lt.2 hlength
  have hmatch : isFlashReply frame = true := by
    simp [isFlashReply, Config.echoPos, frameByte_of_getElem? _ _ _ hid, frameByte_of_getElem? _ _ _ hecho,
      Config.ridStdReply, Config.subcmdFlashRead]
  have hacked : replyAck frame = true := by
    rw [replyAck, Config.ackPos, frameByte_of_getElem? _ _ _ hack]
    exact getLsbD_seven_of_le hset
  obtain ⟨hcount, hbytes⟩ := replyData_spec (frame := frame) (size := s.flashSize.toNat) (by omega)
  refine ⟨_, ?_, hcount, hbytes⟩
  simp only [exec, execFlashReply, if_neg (not_not.2 hpend), if_neg hshort, if_neg (not_not.2 hmatch),
    if_neg (not_not.2 hacked), State.respond_eq]

/-! ### The snapshot (30_encoding.md R77) -/

/-- A field of the snapshot is a function of the snapshot. -/
theorem snapWord_field_eq {b c : Block} (h : snapWord b = snapWord c) {lo n : Nat} {x y : BitVec n}
    (hb : (snapWord b).extractLsb' lo n = x) (hc : (snapWord c).extractLsb' lo n = y) : x = y := by
  rw [← hb, ← hc, h]

/-- The codes of SIDE are distinct (10_state.md R22). -/
theorem Side.code_inj (a b : Side) : a.code = b.code ↔ a = b := by
  cases a <;> cases b <;> decide

/-- The codes of CAL_STATE are distinct (10_state.md R23). -/
theorem CalState.code_inj (a b : CalState) : a.code = b.code ↔ a = b := by
  cases a <;> cases b <;> decide

/-- Settles O46: each register is the field of the snapshot at its place. -/
theorem snapshotDeterminesTheRegisters : Obligations.SnapshotDeterminesTheRegisters := by
  intro b c hstream hresponses hsnap
  have hside := (Side.code_inj _ _).1 (snapWord_field_eq hsnap (snapWord_side b) (snapWord_side c))
  have hcal := (CalState.code_inj _ _).1
    (snapWord_field_eq hsnap (snapWord_calState b) (snapWord_calState c))
  have hpend := BitVec.ofBool_eq_iff_eq.1
    (snapWord_field_eq hsnap (snapWord_flashPend b) (snapWord_flashPend c))
  have hseq := snapWord_field_eq hsnap (snapWord_seq b) (snapWord_seq c)
  have hsize := snapWord_field_eq hsnap (snapWord_flashSize b) (snapWord_flashSize c)
  have hdz := snapWord_field_eq hsnap (snapWord_dz b) (snapWord_dz c)
  have hcx := snapWord_field_eq hsnap (snapWord_cx b) (snapWord_cx c)
  have hcy := snapWord_field_eq hsnap (snapWord_cy b) (snapWord_cy c)
  have hminx := snapWord_field_eq hsnap (snapWord_minx b) (snapWord_minx c)
  have hminy := snapWord_field_eq hsnap (snapWord_miny b) (snapWord_miny c)
  have hmaxx := snapWord_field_eq hsnap (snapWord_maxx b) (snapWord_maxx c)
  have hmaxy := snapWord_field_eq hsnap (snapWord_maxy b) (snapWord_maxy c)
  cases b
  cases c
  exact (Block.mk.injEq ..).mpr
    ⟨hseq, hside, hcal, hcx, hcy, hminx, hminy, hmaxx, hmaxy, hdz, hpend, hsize, hstream, hresponses⟩

/-! ### The invariant -/

/-- Settles O51: every block is well kept after reset, whatever its SEQ_INIT. -/
theorem invariantHoldsAtReset : Obligations.InvariantHoldsAtReset := by
  have hreset : ∀ q, (Block.reset q).WellKept := fun q => by simp [Block.WellKept, Block.reset]
  refine ⟨hreset _, fun b hb => ?_⟩
  obtain ⟨k, -, rfl⟩ := List.mem_map.1 hb
  exact hreset _

/-- Every effect leaves its block well kept. -/
theorem Effect.wellKept {s u : State} {i : Instr} {r : Response} (h : Effect s i u r) (hkept : s.WellKept) :
    u.WellKept := by
  obtain ⟨hsize, hoffered, hbank, hdz⟩ := hkept
  cases h with
  | reply | frame | endRead => exact ⟨hsize, hoffered, hbank, hdz⟩
  | request _ _ _ _ _ hsz => exact ⟨hsz, hoffered, hbank, hdz⟩
  | select _ _ _ hside => exact ⟨hsize, fun _ => hside, hbank, hdz⟩
  | askFactory _ hside haccepts =>
    exact ⟨hsize, fun _ => hside, fun _ => hbank (s.calState.acceptsLoad_iff.1 haccepts),
      fun _ => hdz (ne_locked_of_acceptsLoad haccepts)⟩
  | load _ _ hside haccepts =>
    exact ⟨hsize, fun _ => hside, nofun, fun _ => hdz (ne_locked_of_acceptsLoad haccepts)⟩
  | lock _ hloaded =>
    exact ⟨hsize, fun _ => hoffered (by rw [hloaded]; decide), nofun, fun h => absurd rfl h⟩
  | clear => simp [Block.WellKept]

/-- A command keeps the invariant. -/
theorem exec_inv {i : Instr} {s t : State} (h : exec i s = .next t) (hinv : s.Inv) : t.Inv := by
  obtain ⟨hpeers, -, -, -⟩ := exec_frame h
  obtain ⟨u, r, heff, rfl, -⟩ := exec_next_effect h
  exact ⟨heff.wellKept hinv.1, hpeers ▸ hinv.2⟩

/-- Serving another block keeps the invariant: the two change places. -/
theorem State.serve_inv {s : State} (t : Turn) (hinv : s.Inv) : (s.serve t).Inv := by
  cases t with
  | served => exact hinv
  | peer k =>
    cases hk : s.peers[k]? with
    | none => rwa [s.serve_absent k hk]
    | some b =>
      rw [s.serve_present k b hk]
      refine ⟨hinv.2 b (List.mem_of_getElem? hk), fun c hc => ?_⟩
      obtain hc | rfl := List.mem_or_eq_of_mem_set hc
      · exact hinv.2 c hc
      · exact hinv.1

theorem State.takeTurn_inv {s : State} (hinv : s.Inv) : s.takeTurn.Inv := by
  cases hturns : s.turns with
  | nil => rwa [s.takeTurn_nil hturns]
  | cons t ts =>
    rw [s.takeTurn_cons t ts hturns]
    exact State.serve_inv t hinv

/-- Settles O52: taking the turn keeps the invariant, and so does the command executed then, if there is one. -/
theorem stepKeepsTheInvariant : Obligations.StepKeepsTheInvariant := by
  intro s t hinv hstep
  obtain rfl | ⟨i, rest, -, hexec⟩ := step_cases s t hstep
  · exact State.takeTurn_inv hinv
  · exact exec_inv hexec (State.takeTurn_inv hinv)

/-! ### The instances of the system (10_state.md R31) -/

/-- Settles O54: the turn brings the block in with its own counter, and its command leaves the others. -/
theorem perInstanceStepIsIsolated : Obligations.PerInstanceStepIsIsolated := by
  intro s k ts b i rest hsharing hturns hk hdecode
  have hturn : s.takeTurn =
      { toBlock := b, sharing := .perInstance, peers := s.peers.set k s.toBlock, turns := ts } := by
    rw [s.takeTurn_cons _ ts hturns, s.serve_present k b hk]
    simp only [State.incomingSeq, isShared, hsharing]
    rfl
  have hstep := stepRunsTheDecodedCommand s i rest (by rw [hturn]; exact hdecode)
  rw [hturn] at hstep
  obtain ⟨t, ht⟩ := everyStepAnswersANextState s
  have hexec := hstep.symm.trans ht
  obtain ⟨hpeers, -, -, -⟩ := exec_frame hexec
  obtain ⟨hlt, -⟩ := List.getElem?_eq_some_iff.1 hk
  refine ⟨t, ht, hexec, ?_, fun j hj => ?_⟩
  · simp only [hpeers, List.getElem?_set_self hlt]
  · simp only [hpeers, List.getElem?_set_ne hj.symm]

/-- From `s` to `t` some number of frames was built, and the counter of `t` is that of `s` plus this number, modulo
16 (10_state.md R31). -/
def CountsFrames (s t : State) : Prop :=
  ∃ n, t.totalFrames = s.totalFrames + n ∧ t.seq.toNat = (s.seq.toNat + n) % 16

theorem CountsFrames.of_eq {s t : State} (hframes : t.totalFrames = s.totalFrames) (hseq : t.seq = s.seq) :
    CountsFrames s t :=
  ⟨0, hframes, by rw [hseq, Nat.add_zero, Nat.mod_eq_of_lt s.seq.isLt]⟩

theorem CountsFrames.refl (s : State) : CountsFrames s s := .of_eq rfl rfl

theorem CountsFrames.trans {s t u : State} (hst : CountsFrames s t) (htu : CountsFrames t u) : CountsFrames s u := by
  obtain ⟨m, hm, hm'⟩ := hst
  obtain ⟨n, hn, hn'⟩ := htu
  exact ⟨m + n, by omega, by omega⟩

/-- A command counts the frame it builds. -/
theorem exec_countsFrames {i : Instr} {s t : State} (h : exec i s = .next t) : CountsFrames s t := by
  obtain ⟨hpeers, -, -, -⟩ := exec_frame h
  obtain ⟨hseq, r, hresp, hr⟩ | ⟨hseq, f, hresp, -⟩ := seqAdvancesExactlyWithAFrame i s t h
  · refine .of_eq ?_ hseq
    simp [State.totalFrames, Block.framesBuilt, hresp, hpeers, hr]
  · refine ⟨1, ?_, hseq⟩
    simp [State.totalFrames, Block.framesBuilt, hresp, hpeers, Response.isFrame]
    omega

/-- Putting `x` in the place of `l[k]` moves the difference of the two into the sum. -/
theorem add_sum_map_set {α : Type} (f : α → Nat) {l : List α} {k : Nat} {y : α} (x : α) (h : l[k]? = some y) :
    f y + ((l.set k x).map f).sum = f x + (l.map f).sum := by
  obtain ⟨hlt, rfl⟩ := List.getElem?_eq_some_iff.1 h
  have hset := ((List.set_perm_cons_eraseIdx hlt x).map f).sum_eq
  have hall := ((List.getElem_cons_eraseIdx_perm hlt).map f).sum_eq
  simp only [List.map_cons, List.sum_cons] at hset hall
  omega

/-- Under SHARED a turn moves no frame and keeps the one counter. -/
theorem State.serve_countsFrames {s : State} (t : Turn) (hshared : s.sharing = .shared) :
    CountsFrames s (s.serve t) := by
  cases t with
  | served => exact .refl s
  | peer k =>
    cases hk : s.peers[k]? with
    | none =>
      rw [s.serve_absent k hk]
      exact .refl s
    | some b =>
      have hframes := add_sum_map_set Block.framesBuilt s.toBlock hk
      rw [s.serve_present k b hk]
      refine .of_eq hframes ?_
      simp only [State.incomingSeq, isShared, hshared, if_true]

theorem State.takeTurn_countsFrames {s : State} (hshared : s.sharing = .shared) : CountsFrames s s.takeTurn := by
  cases hturns : s.turns with
  | nil =>
    rw [s.takeTurn_nil hturns]
    exact .refl s
  | cons t ts =>
    rw [s.takeTurn_cons t ts hturns]
    exact State.serve_countsFrames t hshared

/-- Under SHARED a step counts the frame it builds, whichever block builds it, and the system stays SHARED. -/
theorem step_countsFrames {s t : State} (hshared : s.sharing = .shared) (h : step s = .next t) :
    t.sharing = .shared ∧ CountsFrames s t := by
  have hturn := State.takeTurn_countsFrames hshared
  obtain rfl | ⟨i, rest, -, hexec⟩ := step_cases s t h
  · exact ⟨s.takeTurn_sharing.trans hshared, hturn⟩
  · have hcommand := exec_countsFrames hexec
    obtain ⟨-, hsharing, -, -⟩ := exec_frame hexec
    exact ⟨hsharing.trans (s.takeTurn_sharing.trans hshared), hturn.trans hcommand⟩

/-- Under SHARED a run counts the frames it builds. -/
theorem run_countsFrames {n : Nat} {s t : State} (hshared : s.sharing = .shared)
    (h : Host.Core.run core n s = .next t) : CountsFrames s t := by
  induction n generalizing s with
  | zero =>
    obtain rfl := run_zero s t h
    exact .refl _
  | succ n ih =>
    obtain ⟨u, hstep, hrest⟩ := run_succ n s t h
    obtain ⟨hstill, hfirst⟩ := step_countsFrames hshared hstep
    exact hfirst.trans (ih hstill hrest)

/-- Settles O55: the frames a run built are the difference of the two totals. -/
theorem sharedSeqCountsAllFrames : Obligations.SharedSeqCountsAllFrames := by
  intro n s t hshared hrun
  obtain ⟨m, hframes, hseq⟩ := run_countsFrames hshared hrun
  exact ⟨by omega, by rw [hseq, hframes, Nat.add_sub_cancel_left]⟩

end Sys2Proof.Machine
end

section
/-! PROOFS. Which commands write no state, and what a command leaves untouched (20_memory.md R47, R49,
60_exceptions.md R220). -/

namespace Sys2Proof.Machine

/-! ### Commands that write no state (20_memory.md R47) -/

/-- In the state `s` the command `i` gives the response `r` and writes nothing else. -/
def OnlyResponds (i : Instr) (s : State) (r : Response) : Prop :=
  exec i s = .next { s with responses := s.responses ++ [r] }

/-- A command that writes nothing else gives the same response again: an outcome depends on the registers alone. -/
theorem OnlyResponds.again {i : Instr} {s : State} {r : Response} (h : OnlyResponds i s r) :
    OnlyResponds i { s with responses := s.responses ++ [r] } r :=
  outcomeDependsOnRegistersAlone i s _ s.stream (s.responses ++ [r]) s.peers s.turns s.sharing r h rfl

/-- DECODE (42_parser.md R140). -/
theorem decode_onlyResponds (frame : List Byte) (s : State) : ∃ r, OnlyResponds (.decode frame) s r := by
  simp only [OnlyResponds, exec, execDecode]
  split
  · exact ⟨⟨.unknownSide, .none⟩, rfl⟩
  · next half _ =>
    split_ifs
    · exact ⟨⟨.truncated, .none⟩, rfl⟩
    · exact ⟨⟨.ok, .deviceStatus (deviceStatus s.toBlock half frame).word⟩, rfl⟩
    · exact ⟨⟨.unsupportedReport, .none⟩, rfl⟩

/-- UNMARSHAL (43_calibration.md R162). -/
theorem unmarshal_onlyResponds (raw : Raw9) (s : State) : ∃ r, OnlyResponds (.unmarshal raw) s r := by
  simp only [OnlyResponds, exec, execUnmarshal]
  split
  · exact ⟨⟨.unknownSide, .none⟩, rfl⟩
  · next half _ => exact ⟨⟨.ok, .calibration (unmarshal raw half).word⟩, rfl⟩

/-- CLASSIFY (43_calibration.md R170). -/
theorem classify_onlyResponds (hor ver : Word12) (s : State) :
    OnlyResponds (.classify hor ver) s ⟨.ok, .direction (directionOf s.toBlock hor ver).code⟩ := rfl

/-- READ_STATE (44_control.md R200). -/
theorem readState_onlyResponds (s : State) : OnlyResponds .readState s ⟨.ok, .snapshot (snapWord s.toBlock)⟩ := rfl

/-- Settles O13: each of the four commands only responds, and what only responds does so again. -/
theorem readOnlyCommandsAreIdempotent : Obligations.ReadOnlyCommandsAreIdempotent := by
  intro i s t hreadOnly hexec
  have hresponds : ∃ r, OnlyResponds i s r := by
    obtain ⟨frame, rfl⟩ | ⟨raw, rfl⟩ | ⟨hor, ver, rfl⟩ | rfl := hreadOnly
    · exact decode_onlyResponds frame s
    · exact unmarshal_onlyResponds raw s
    · exact ⟨_, classify_onlyResponds hor ver s⟩
    · exact ⟨_, readState_onlyResponds s⟩
  obtain ⟨r, hr⟩ := hresponds
  obtain rfl := Host.Outcome.next.inj (hexec.symm.trans hr)
  exact ⟨r, rfl, hr.again⟩

/-! ### The frame of a command (20_memory.md R49, 60_exceptions.md R220) -/

/-- Settles O53: every command has one of the effects, and no effect is on the environment. -/
theorem commandTouchesOnlyItsInstance : Obligations.CommandTouchesOnlyItsInstance := by
  intro i s t hexec
  exact exec_frame hexec

end Sys2Proof.Machine
end

section
/-! PROOFS. Packing and little-endian operands read and write back (30_encoding.md R71, R72, R161), and the decoder
and the encoder are inverse to each other (R61 to R64). -/

namespace Sys2Proof.Machine

/-! ### Packed pairs (30_encoding.md R71, R72) -/

/-- The first value of three packed bytes as a number. -/
theorem unpack12_fst_toNat (b0 b1 b2 : Byte) :
    (unpack12 b0 b1 b2).1.toNat = b0.toNat + 256 * (b1.toNat % 16) := by
  have h0 := b0.isLt
  have hlow := lowNibble_toNat b1
  have hfield := fieldAt_toNat 12 0 b0 (by omega)
  rw [unpack12, or_fieldAt_toNat 8 _ _ (by omega) (by omega)]
  omega

/-- The second value of three packed bytes as a number. -/
theorem unpack12_snd_toNat (b0 b1 b2 : Byte) :
    (unpack12 b0 b1 b2).2.toNat = b1.toNat / 16 + 16 * b2.toNat := by
  have h1 := b1.isLt
  have h2 := b2.isLt
  have hhigh := highNibble_toNat b1
  have hfield := fieldAt_toNat 12 0 (b1 >>> 4) (by omega)
  rw [unpack12, or_fieldAt_toNat 4 _ _ (by omega) (by omega)]
  omega

/-- Settles O6: the two fields of each value do not overlap, so they add. -/
theorem unpackFollowsNibbleFormula : Obligations.UnpackFollowsNibbleFormula :=
  fun b0 b1 b2 => ⟨unpack12_fst_toNat b0 b1 b2, unpack12_snd_toNat b0 b1 b2⟩

/-- Packed values unpack to themselves. -/
theorem unpack12_pack (first second : Word12) :
    unpack12 (packByte0 first) (packByte1 first second) (packByte2 second) = (first, second) := by
  have hfirst := first.isLt
  have hsecond := second.isLt
  refine Prod.ext (BitVec.eq_of_toNat_eq ?_) (BitVec.eq_of_toNat_eq ?_)
  · rw [unpack12_fst_toNat, packByte0_toNat, packByte1_toNat]
    dsimp only
    omega
  · rw [unpack12_snd_toNat, packByte1_toNat, packByte2_toNat]
    dsimp only
    omega

/-- Unpacked bytes pack to themselves. -/
theorem pack_unpack12 (b0 b1 b2 : Byte) :
    packByte0 (unpack12 b0 b1 b2).1 = b0 ∧ packByte1 (unpack12 b0 b1 b2).1 (unpack12 b0 b1 b2).2 = b1 ∧
      packByte2 (unpack12 b0 b1 b2).2 = b2 := by
  have h0 := b0.isLt
  have h1 := b1.isLt
  refine ⟨BitVec.eq_of_toNat_eq ?_, BitVec.eq_of_toNat_eq ?_, BitVec.eq_of_toNat_eq ?_⟩
  · rw [packByte0_toNat, unpack12_fst_toNat]
    omega
  · rw [packByte1_toNat, unpack12_fst_toNat, unpack12_snd_toNat]
    omega
  · rw [packByte2_toNat, unpack12_snd_toNat]
    omega

/-- Settles O7: both ways are the identity on the numbers of the fields. -/
theorem packingIsABijection : Obligations.PackingIsABijection :=
  ⟨unpack12_pack, pack_unpack12⟩

/-! ### Calibration sections (43_calibration.md R161) -/

/-- Three pairs of 12-bit values packed into nine bytes. -/
def packRaw (first0 second0 first1 second1 first2 second2 : Word12) : Raw9 :=
  ⟨packByte0 first0, packByte1 first0 second0, packByte2 second0,
   packByte0 first1, packByte1 first1 second1, packByte2 second1,
   packByte0 first2, packByte1 first2 second2, packByte2 second2⟩

/-- The calibration section of a half that holds a bank: the inverse of `unmarshal`. -/
def marshal (bank : CalBank) : Half → Raw9
  | .left => packRaw bank.maxx bank.maxy bank.cx bank.cy bank.minx bank.miny
  | .right => packRaw bank.cx bank.cy bank.minx bank.miny bank.maxx bank.maxy

theorem marshal_unmarshal (raw : Raw9) (half : Half) : marshal (unmarshal raw half) half = raw := by
  cases half <;> simp [marshal, unmarshal, packRaw, pack_unpack12]

theorem unmarshal_marshal (bank : CalBank) (half : Half) : unmarshal (marshal bank half) half = bank := by
  cases half <;> simp [marshal, unmarshal, packRaw, unpack12_pack]

/-- Settles O33: `marshal` is the inverse. -/
theorem unmarshalIsABijection : Obligations.UnmarshalIsABijection := fun half =>
  Function.bijective_iff_has_inverse.2
    ⟨(marshal · half), (marshal_unmarshal · half), (unmarshal_marshal · half)⟩

/-! ### Little-endian operands (20_memory.md R44) -/

/-- The bytes of a 16-bit operand are those it was read from. -/
theorem byteOf16_le16 (b0 b1 : Byte) : byteOf16 (le16 b0 b1) 0 = b0 ∧ byteOf16 (le16 b0 b1) 1 = b1 := by
  have h0 := b0.isLt
  have h1 := b1.isLt
  constructor <;> apply BitVec.eq_of_toNat_eq <;> rw [byteOf16_toNat, le16_toNat] <;> omega

/-- The bytes of a 32-bit operand are those it was read from. -/
theorem byteOf32_le32 (b0 b1 b2 b3 : Byte) :
    byteOf32 (le32 b0 b1 b2 b3) 0 = b0 ∧ byteOf32 (le32 b0 b1 b2 b3) 1 = b1 ∧
      byteOf32 (le32 b0 b1 b2 b3) 2 = b2 ∧ byteOf32 (le32 b0 b1 b2 b3) 3 = b3 := by
  have h0 := b0.isLt
  have h1 := b1.isLt
  have h2 := b2.isLt
  have h3 := b3.isLt
  refine ⟨?_, ?_, ?_, ?_⟩ <;> apply BitVec.eq_of_toNat_eq <;> rw [byteOf32_toNat, le32_toNat] <;> omega

/-! ### Decoding an encoded command (30_encoding.md R62) -/

/-- A descriptor byte below 0x10 selects by its OP. -/
theorem decode_op (op : Nat) (hop : op < 16) (operands : List Byte) :
    decode (BitVec.ofNat 8 op :: operands) = decodeOp op operands :=
  decodeDescriptor_op op hop operands

/-- Descriptor 0x11 selects ENCODE_SUBCMD.RO. -/
theorem decode_encodeSubcmdRo (operands : List Byte) :
    decode (0x11#8 :: operands) = orIncomplete "ENCODE_SUBCMD.RO" (readEncodeSubcmdRo operands) := rfl

/-- A descriptor with CMD[7:5] other than 0 is a reserved row. -/
theorem decode_reservedHi (cmd : Byte) (h : cmd.extractLsb' 5 3 ≠ 0#3) (operands : List Byte) :
    decode (cmd :: operands) = .ok (.reservedHi cmd, operands) := by
  rw [decode, decodeDescriptor, if_pos h]

/-- Settles O1: each row's reader takes back the operands its encoding holds. -/
theorem decodeReadsBackEncodedCommand : Obligations.DecodeReadsBackEncodedCommand := by
  intro i rest hwf hcmd
  cases i with
  | encodeSubcmd sc pay =>
    refine (decode_op 0x1 (by decide) _).trans ?_
    simp [decodeOp, readEncodeSubcmd, takeCounted_counted pay rest hwf, orIncomplete]
  | encodeSubcmdRo sc rumble pay =>
    have hlen := lengthByte_toNat pay hwf
    refine (decode_encodeSubcmdRo _).trans ?_
    simp [Rumble8.bytes, readEncodeSubcmdRo, hlen, takeBytes_append, orIncomplete]
  | encodeRumble => exact decode_op 0x2 (by decide) rest
  | decode frame =>
    refine (decode_op 0x3 (by decide) _).trans ?_
    simp [decodeOp, readDecode, takeCounted_counted frame rest hwf, orIncomplete]
  | setSide pid =>
    refine (decode_op 0x4 (by decide) _).trans ?_
    simp [decodeOp, readSetSide, le16_bytes, orIncomplete]
  | calLoadUser raw =>
    refine (decode_op 0x5 (by decide) _).trans ?_
    simp [decodeOp, readCalLoadUser, takeRaw9_bytes, orIncomplete]
  | calLoadFactory raw =>
    refine (decode_op 0x6 (by decide) _).trans ?_
    simp [decodeOp, readCalLoadFactory, takeRaw9_bytes, orIncomplete]
  | calSetDeadzone params =>
    refine (decode_op 0x7 (by decide) _).trans ?_
    simp [decodeOp, readCalSetDeadzone, takeParams5_bytes, orIncomplete]
  | classify h v =>
    refine (decode_op 0x8 (by decide) _).trans ?_
    simp [decodeOp, readClassify, unpack12_pack, orIncomplete]
  | unmarshal raw =>
    refine (decode_op 0x9 (by decide) _).trans ?_
    simp [decodeOp, readUnmarshal, takeRaw9_bytes, orIncomplete]
  | flashReq addr size =>
    refine (decode_op 0xA (by decide) _).trans ?_
    simp [decodeOp, readFlashReq, le32_bytes, orIncomplete]
  | flashReply frame =>
    refine (decode_op 0xB (by decide) _).trans ?_
    simp [decodeOp, readFlashReply, takeCounted_counted frame rest hwf, orIncomplete]
  | flashTimeout => exact decode_op 0xC (by decide) rest
  | readState => exact decode_op 0xD (by decide) rest
  | sessionClear => exact decode_op 0xE (by decide) rest
  | reservedOp0 => exact decode_op 0x0 (by decide) rest
  | reservedOpF => exact decode_op 0xF (by decide) rest
  | reservedRo op =>
    exact decodeDescriptor_reservedRo op (by simpa [Instr.wellFormed] using hwf) rest
  | reservedHi cmd => exact decode_reservedHi cmd (by simpa [Instr.wellFormed] using hwf) rest
  | wireOutSubcmd _ | wireOutRumble _ | wireInStdReply _ | wireInStdFull _ | wireInNfcIr _ => cases hcmd

/-! ### Encoding a decoded command (30_encoding.md R62, R63) -/

/-- Whatever `d` decodes is well formed, and `bytes` are its encoding and what is left. -/
def DecodesEncoding (bytes : List Byte) (d : Decoded) : Prop :=
  ∀ (i : Instr) (rest : List Byte), d = .ok (i, rest) → i.wellFormed = true ∧ bytes = encode i ++ rest

theorem DecodesEncoding.of_ok {bytes rest : List Byte} {i : Instr} (hwf : i.wellFormed = true)
    (hbytes : bytes = encode i ++ rest) : DecodesEncoding bytes (.ok (i, rest)) := by
  rintro _ _ ⟨⟩
  exact ⟨hwf, hbytes⟩

/-- Operands that are not all there decode to nothing. -/
theorem DecodesEncoding.of_none (bytes : List Byte) (mnemonic : String) :
    DecodesEncoding bytes (orIncomplete mnemonic none) :=
  nofun

/-- A command built from one operand `a`, when what the operand's reader takes is what the encoding holds. -/
theorem DecodesEncoding.of_map {α : Type} {bytes : List Byte} {mnemonic : String} {o : Option (α × List Byte)}
    (row : α → Instr)
    (h : ∀ a rest, o = some (a, rest) → (row a).wellFormed = true ∧ bytes = encode (row a) ++ rest) :
    DecodesEncoding bytes (orIncomplete mnemonic (o.map fun (a, rest) => (row a, rest))) := by
  cases o with
  | none => exact .of_none bytes mnemonic
  | some read =>
    obtain ⟨hwf, hbytes⟩ := h read.1 read.2 rfl
    exact .of_ok hwf hbytes

/-- A command whose operands end in a length byte and the bytes it counts. -/
theorem DecodesEncoding.of_counted {mnemonic : String} (front operands : List Byte) (row : List Byte → Instr)
    (hwf : ∀ bytes, (row bytes).wellFormed = lengthFits bytes)
    (hencode : ∀ bytes, encode (row bytes) = front ++ counted bytes) :
    DecodesEncoding (front ++ operands)
      (orIncomplete mnemonic ((takeCounted operands).map fun (bytes, rest) => (row bytes, rest))) :=
  .of_map row fun bytes rest hread => by
    obtain ⟨hfits, rfl⟩ := (takeCounted_eq_some _ _ _).1 hread
    exact ⟨(hwf bytes).trans hfits, by rw [hencode, List.append_assoc]⟩

/-- A command whose operands are a calibration section. -/
theorem DecodesEncoding.of_raw {mnemonic : String} (cmd : Byte) (operands : List Byte) (row : Raw9 → Instr)
    (hwf : ∀ raw, (row raw).wellFormed = true) (hencode : ∀ raw, encode (row raw) = cmd :: raw.bytes) :
    DecodesEncoding (cmd :: operands)
      (orIncomplete mnemonic ((takeRaw9 operands).map fun (raw, rest) => (row raw, rest))) :=
  .of_map row fun raw rest hread => by
    obtain rfl := (takeRaw9_eq_some _ _ _).1 hread
    exact ⟨hwf raw, by rw [hencode, List.cons_append]⟩

theorem encodeSubcmd_decodesEncoding (operands : List Byte) :
    DecodesEncoding (0x01#8 :: operands) (orIncomplete "ENCODE_SUBCMD" (readEncodeSubcmd operands)) := by
  cases operands with
  | nil => exact .of_none _ _
  | cons sc operands =>
    exact .of_counted [0x01#8, sc] operands (.encodeSubcmd sc) (fun _ => rfl) fun _ => rfl

theorem encodeSubcmdRo_decodesEncoding (operands : List Byte) :
    DecodesEncoding (0x11#8 :: operands) (orIncomplete "ENCODE_SUBCMD.RO" (readEncodeSubcmdRo operands)) := by
  unfold readEncodeSubcmdRo
  split
  · next sc plen r0 r1 r2 r3 r4 r5 r6 r7 operands =>
    refine .of_map (.encodeSubcmdRo sc ⟨r0, r1, r2, r3, r4, r5, r6, r7⟩) fun pay rest hread => ?_
    obtain ⟨hlen, rfl⟩ := (takeBytes_eq_some _ _ _ _).1 hread
    have hplen := plen.isLt
    refine ⟨decide_eq_true (by omega), ?_⟩
    simp [encode, Rumble8.bytes, hlen]
  · exact .of_none _ _

theorem setSide_decodesEncoding (operands : List Byte) :
    DecodesEncoding (0x04#8 :: operands) (orIncomplete "SET_SIDE" (readSetSide operands)) := by
  unfold readSetSide
  split
  · exact .of_ok rfl (by simp [encode, byteOf16_le16])
  · exact .of_none _ _

theorem calSetDeadzone_decodesEncoding (operands : List Byte) :
    DecodesEncoding (0x07#8 :: operands) (orIncomplete "CAL_SET_DEADZONE" (readCalSetDeadzone operands)) :=
  .of_map .calSetDeadzone fun params rest hread => by
    obtain rfl := (takeParams5_eq_some _ _ _).1 hread
    exact ⟨rfl, rfl⟩

theorem classify_decodesEncoding (operands : List Byte) :
    DecodesEncoding (0x08#8 :: operands) (orIncomplete "CLASSIFY" (readClassify operands)) := by
  unfold readClassify
  split
  · exact .of_ok rfl (by simp [encode, pack_unpack12])
  · exact .of_none _ _

theorem flashReq_decodesEncoding (operands : List Byte) :
    DecodesEncoding (0x0A#8 :: operands) (orIncomplete "FLASH_REQ" (readFlashReq operands)) := by
  unfold readFlashReq
  split
  · exact .of_ok rfl (by simp [encode, byteOf32_le32])
  · exact .of_none _ _

/-- OP with RO = 0 selects the row whose descriptor it is (30_encoding.md R61). -/
theorem decodeOp_decodesEncoding (op : Nat) (hop : op < 16) (operands : List Byte) :
    DecodesEncoding (BitVec.ofNat 8 op :: operands) (decodeOp op operands) :=
  match op with
  | 0x0 => .of_ok rfl rfl
  | 0x1 => encodeSubcmd_decodesEncoding operands
  | 0x2 => .of_ok rfl rfl
  | 0x3 => .of_counted [0x03#8] operands .decode (fun _ => rfl) fun _ => rfl
  | 0x4 => setSide_decodesEncoding operands
  | 0x5 => .of_raw 0x05#8 operands .calLoadUser (fun _ => rfl) fun _ => rfl
  | 0x6 => .of_raw 0x06#8 operands .calLoadFactory (fun _ => rfl) fun _ => rfl
  | 0x7 => calSetDeadzone_decodesEncoding operands
  | 0x8 => classify_decodesEncoding operands
  | 0x9 => .of_raw 0x09#8 operands .unmarshal (fun _ => rfl) fun _ => rfl
  | 0xA => flashReq_decodesEncoding operands
  | 0xB => .of_counted [0x0B#8] operands .flashReply (fun _ => rfl) fun _ => rfl
  | 0xC | 0xD | 0xE | 0xF => .of_ok rfl rfl
  | n + 16 => absurd hop (by omega)

/-- RO = 1 with CMD[7:5] = 0 selects ENCODE_SUBCMD.RO or a reserved row (30_encoding.md R61, R64). -/
theorem decodeRo_decodesEncoding (op : BitVec 4) (operands : List Byte) :
    DecodesEncoding ((0x10#8 ||| op.setWidth 8) :: operands) (decode ((0x10#8 ||| op.setWidth 8) :: operands)) := by
  by_cases hop : op = 1#4
  · subst hop
    exact encodeSubcmdRo_decodesEncoding operands
  · rw [decode, decodeDescriptor_reservedRo op hop]
    exact .of_ok (by simpa [Instr.wellFormed] using hop) rfl

theorem decode_decodesEncoding (bytes : List Byte) : DecodesEncoding bytes (decode bytes) := by
  cases bytes with
  | nil => nofun
  | cons cmd operands =>
    obtain hhi | ⟨op, rfl⟩ | ⟨op, hop, rfl⟩ := descriptor_cases cmd
    · rw [decode_reservedHi cmd hhi]
      exact .of_ok (by simpa [Instr.wellFormed] using hhi) rfl
    · exact decodeRo_decodesEncoding op operands
    · rw [decode_op op hop]
      exact decodeOp_decodesEncoding op hop operands

/-- The encoding of a well-formed row has the length of the table of R62. -/
theorem encode_length (i : Instr) (hwf : i.wellFormed = true) : (encode i).length = encodedLength i := by
  cases i with
  | encodeSubcmd _ _ => exact Laws.EncodeLength.encodeSubcmd _ _ hwf
  | encodeSubcmdRo _ _ _ => exact Laws.EncodeLength.encodeSubcmdRo _ _ _ hwf
  | decode _ => exact Laws.EncodeLength.decode _ hwf
  | flashReply _ => exact Laws.EncodeLength.flashReply _ hwf
  | wireOutSubcmd _ => exact Laws.EncodeLength.wireOutSubcmd _ hwf
  | wireOutRumble _ => exact Laws.EncodeLength.wireOutRumble _ hwf
  | wireInStdReply _ => exact Laws.EncodeLength.wireInStdReply _ hwf
  | wireInStdFull _ => exact Laws.EncodeLength.wireInStdFull _ hwf
  | wireInNfcIr _ => exact Laws.EncodeLength.wireInNfcIr _ hwf
  | _ => rfl

/-- Settles O2: each row's reader leaves what follows the row's encoding. -/
theorem decodedBytesAreTheEncoding : Obligations.DecodedBytesAreTheEncoding := by
  intro bytes rest i hdecode
  obtain ⟨hwf, hbytes⟩ := decode_decodesEncoding bytes i rest hdecode
  refine ⟨hwf, decodesCommands_decode bytes i rest hdecode, hbytes, ?_⟩
  rw [hbytes, List.length_append, encode_length i hwf]

/-! ### The opcode map (30_encoding.md R61, R64) -/

/-- An illegal descriptor (30_encoding.md R64). -/
abbrev IllegalDescriptor (cmd : Byte) : Prop :=
  cmd.toNat % 16 = 0 ∨ cmd.toNat % 16 = 15 ∨ cmd.toNat / 32 ≠ 0 ∨ (cmd.toNat / 16 % 2 = 1 ∧ cmd.toNat % 16 ≠ 1)

/-- The four reserved rows (44_control.md R202). -/
abbrev IsReservedRow (i : Instr) : Prop :=
  i = .reservedOp0 ∨ i = .reservedOpF ∨ (∃ op, i = .reservedRo op) ∨ ∃ cmd, i = .reservedHi cmd

/-- CMD[7:5] as a number. -/
theorem extract_hi_eq_zero_iff (cmd : Byte) : cmd.extractLsb' 5 3 = 0#3 ↔ cmd.toNat / 32 = 0 := by
  have := cmd.isLt
  rw [← BitVec.toNat_inj, BitVec.extractLsb'_toNat, Nat.shiftRight_eq_div_pow, BitVec.toNat_ofNat]
  omega

/-- A descriptor with RO = 1 and CMD[7:5] = 0 is illegal unless its OP is 1. -/
theorem illegalDescriptor_ro_iff (op : BitVec 4) : IllegalDescriptor (0x10#8 ||| op.setWidth 8) ↔ op ≠ 1#4 := by
  revert op
  decide

/-- The descriptor of a reserved row is illegal, and that of every other command is legal. -/
theorem isReservedRow_iff_illegalDescriptor {i : Instr} {cmd : Byte} {operands rest : List Byte}
    (hwf : i.wellFormed = true) (hcmd : i.isCommand = true) (hencode : cmd :: operands = encode i ++ rest) :
    IsReservedRow i ↔ IllegalDescriptor cmd := by
  cases i with
  | reservedRo op =>
    obtain ⟨rfl, -⟩ := List.cons.inj hencode
    have hop : op ≠ 1#4 := by simpa [Instr.wellFormed] using hwf
    exact iff_of_true (.inr (.inr (.inl ⟨op, rfl⟩))) ((illegalDescriptor_ro_iff op).2 hop)
  | reservedHi hi =>
    obtain ⟨rfl, -⟩ := List.cons.inj hencode
    have hhi : cmd.toNat / 32 ≠ 0 := by simpa [Instr.wellFormed, extract_hi_eq_zero_iff] using hwf
    exact iff_of_true (.inr (.inr (.inr ⟨cmd, rfl⟩))) (.inr (.inr (.inl hhi)))
  | wireOutSubcmd _ | wireOutRumble _ | wireInStdReply _ | wireInStdFull _ | wireInNfcIr _ => cases hcmd
  | _ =>
    obtain ⟨rfl, -⟩ := List.cons.inj hencode
    simp [IsReservedRow, IllegalDescriptor]

/-- An illegal descriptor is the whole encoding of a reserved row. -/
theorem IllegalDescriptor.exists_row {cmd : Byte} (h : IllegalDescriptor cmd) :
    ∃ i : Instr, i.wellFormed = true ∧ IsReservedRow i ∧ encode i = [cmd] := by
  obtain hhi | ⟨op, rfl⟩ | ⟨op, hop, rfl⟩ := descriptor_cases cmd
  · exact ⟨.reservedHi cmd, by simpa [Instr.wellFormed] using hhi, .inr (.inr (.inr ⟨cmd, rfl⟩)), rfl⟩
  · have hop := (illegalDescriptor_ro_iff op).1 h
    exact ⟨.reservedRo op, by simpa [Instr.wellFormed] using hop, .inr (.inr (.inl ⟨op, rfl⟩)), rfl⟩
  · have hends : op = 0 ∨ op = 15 := by
      simp only [IllegalDescriptor, BitVec.toNat_ofNat] at h
      omega
    obtain rfl | rfl := hends
    · exact ⟨.reservedOp0, rfl, .inl rfl, rfl⟩
    · exact ⟨.reservedOpF, rfl, .inr (.inl rfl), rfl⟩

theorem IsReservedRow.isCommand {i : Instr} (h : IsReservedRow i) : i.isCommand = true := by
  obtain rfl | rfl | ⟨op, rfl⟩ | ⟨cmd, rfl⟩ := h <;> rfl

/-- Every reserved row answers ILLEGAL_COMMAND and writes nothing. -/
theorem IsReservedRow.exec_eq {i : Instr} (h : IsReservedRow i) (s : State) :
    exec i s = .next { s with responses := s.responses ++ [⟨.illegalCommand, .none⟩] } := by
  obtain rfl | rfl | ⟨op, rfl⟩ | ⟨cmd, rfl⟩ := h <;> rfl

/-- Settles O4: the descriptor is the encoding of a reserved row, which the step decodes and executes. -/
theorem illegalDescriptorAnswersIllegalCommand : Obligations.IllegalDescriptorAnswersIllegalCommand := by
  intro s cmd rest hturns hstream hillegal
  obtain ⟨i, hwf, hreserved, hencode⟩ := IllegalDescriptor.exists_row hillegal
  have hdecode : decode s.takeTurn.stream = .ok (i, rest) := by
    rw [s.takeTurn_nil hturns, hstream]
    simpa [hencode] using decodeReadsBackEncodedCommand i rest hwf hreserved.isCommand
  rw [stepRunsTheDecodedCommand s i rest hdecode, s.takeTurn_nil hturns]
  exact hreserved.exec_eq _

/-- A length byte that is the length of a sequence is the one the encoder writes, and the sequence fits it. -/
theorem lengthByte_eq {bytes : List Byte} {len : Byte} (h : bytes.length = len.toNat) :
    BitVec.ofNat 8 bytes.length = len ∧ lengthFits bytes = true := by
  have := len.isLt
  exact ⟨by simp [h], decide_eq_true (by omega)⟩

/-- Settles O5: commands with a counted sequence are encodings, the others are read operand by operand, and a decoded
command has the descriptor of its encoding. -/
theorem legalDescriptorSelectsCommand : Obligations.LegalDescriptorSelectsCommand := by
  refine ⟨fun sc plen pay rest hlen => ?_,
    fun sc plen r0 r1 r2 r3 r4 r5 r6 r7 pay rest hlen => ?_,
    fun rest => rfl,
    fun len frame rest hlen => ?_,
    fun lo hi rest => ⟨le16 lo hi, rfl, ?_⟩,
    fun _ _ _ _ _ _ _ _ _ rest => ⟨rfl, rfl, rfl⟩,
    fun _ _ _ _ _ rest => rfl,
    fun b0 b1 b2 rest => ⟨_, _, rfl, unpackFollowsNibbleFormula b0 b1 b2⟩,
    fun a0 a1 a2 a3 size rest => ⟨le32 a0 a1 a2 a3, rfl, ?_⟩,
    fun len frame rest hlen => ?_,
    fun rest => ⟨rfl, rfl, rfl, rfl, rfl⟩,
    fun cmd operands rest i hdecode => ?_⟩
  · obtain ⟨rfl, hfits⟩ := lengthByte_eq hlen
    exact decodeReadsBackEncodedCommand (.encodeSubcmd sc pay) rest hfits rfl
  · obtain ⟨rfl, hfits⟩ := lengthByte_eq hlen
    exact decodeReadsBackEncodedCommand (.encodeSubcmdRo sc ⟨r0, r1, r2, r3, r4, r5, r6, r7⟩ pay) rest hfits rfl
  · obtain ⟨rfl, hfits⟩ := lengthByte_eq hlen
    exact decodeReadsBackEncodedCommand (.decode frame) rest hfits rfl
  · rw [le16_toNat]
    omega
  · rw [le32_toNat]
    omega
  · obtain ⟨rfl, hfits⟩ := lengthByte_eq hlen
    exact decodeReadsBackEncodedCommand (.flashReply frame) rest hfits rfl
  · obtain ⟨hwf, hcmd, hbytes, -⟩ := decodedBytesAreTheEncoding _ _ _ hdecode
    exact isReservedRow_iff_illegalDescriptor hwf hcmd hbytes

/-- Settles O3: the decoder computes on each word. -/
theorem specWordsDecode : Obligations.SpecWordsDecode :=
  ⟨rfl, rfl, rfl, rfl, rfl, rfl, rfl, rfl, rfl, rfl, rfl, rfl, rfl, rfl, rfl, rfl, rfl, rfl, rfl⟩

end Sys2Proof.Machine
end

section
/-! PROOFS. The frames the block builds, byte for byte (40_framer.md R101, R102, 41_flash.md R121). -/

namespace Sys2Proof.Machine

/-! ### The bytes of a subcommand frame (30_encoding.md R66) -/

/-- Byte 1 of a frame carries the sequence number. -/
theorem frame_seq {f : List Byte} {q : BitVec 4} (h : f[1]? = some (q.setWidth 8)) :
    f[1]?.map BitVec.toNat = some q.toNat := by
  rw [h, Option.map_some, seqByte_toNat]

/-- The rumble bytes stand at bytes 2 to 9. -/
theorem subcmdFrame_rumble (q : BitVec 4) (rb : Rumble8) (sc : Byte) (pay : List Byte) {k : Nat} (hk : k < 8) :
    (subcmdFrame q rb sc pay)[2 + k]? = rb.bytes[k]? := by
  interval_cases k <;> rfl

/-- A form of ENCODE_SUBCMD and the rumble bytes its frame carries (40_framer.md R101). -/
theorem encodeSubcmd_forms {i : Instr} {sc : Byte} {pay rumble : List Byte}
    (h : (i = .encodeSubcmd sc pay ∧ rumble = [0x00#8, 0x01#8, 0x40#8, 0x40#8, 0x00#8, 0x01#8, 0x40#8, 0x40#8]) ∨
      (∃ rb : Rumble8, i = .encodeSubcmdRo sc rb pay ∧
        rumble = [rb.r0, rb.r1, rb.r2, rb.r3, rb.r4, rb.r5, rb.r6, rb.r7])) :
    ∃ rb : Rumble8, rumble = rb.bytes ∧ ∀ s : State, exec i s = s.buildSubcmd rb sc pay := by
  obtain ⟨rfl, rfl⟩ | ⟨rb, rfl, rfl⟩ := h
  · exact ⟨rumbleNeutral, rfl, fun _ => rfl⟩
  · exact ⟨rb, rfl, fun _ => rfl⟩

/-- Settles O15: both forms build the subcommand frame, whose bytes are known by their place. -/
theorem encodeSubcmdBuildsTheFrame : Obligations.EncodeSubcmdBuildsTheFrame := by
  intro s i sc pay rumble hfits hform
  obtain ⟨rb, rfl, hexec⟩ := encodeSubcmd_forms hform
  refine ⟨subcmdFrame s.seq rb sc pay, ?_, subcmdFrame_length _ _ _ _ hfits, rfl, frame_seq rfl,
    fun k hk => subcmdFrame_rumble _ _ _ _ hk, rfl, subcmdFrame_payload _ _ _ _, subcmdFrame_padding _ _ _ _⟩
  rw [hexec, s.buildSubcmd_fits rb sc pay hfits]
  rfl

/-- After byte 1 a rumble-only frame is zeros. -/
theorem rumbleFrame_padding (q : BitVec 4) {k : Nat} (hlo : 2 ≤ k) (hhi : k < 49) :
    (rumbleFrame q)[k]? = some 0x00#8 := by
  rw [rumbleFrame, List.getElem?_append_right hlo, List.getElem?_replicate, Config.reportLen, if_pos]
  simp only [List.length_cons, List.length_nil]
  omega

/-- Settles O17: two bytes, then zeros. -/
theorem encodeRumbleBuildsTheFrame : Obligations.EncodeRumbleBuildsTheFrame := fun s =>
  ⟨rumbleFrame s.seq, rfl, rfl, rfl, frame_seq rfl, fun _ => rumbleFrame_padding s.seq⟩

/-! ### The flash-read request (30_encoding.md R80) -/

/-- The payload of a request begins with the address, low byte first. -/
theorem flashPayload_addr (addr : BitVec 32) (size : Byte) {k : Nat} (hk : k < 4) :
    (flashPayload addr size)[k]?.map BitVec.toNat = some (addr.toNat / 256 ^ k % 256) := by
  have hbyte : (flashPayload addr size)[k]? = some (byteOf32 addr k) := by interval_cases k <;> rfl
  rw [hbyte, Option.map_some, byteOf32_toNat, pow_mul]
  rfl

/-- Byte 4 of the payload of a request is the clamped size. -/
theorem flashPayload_size (addr : BitVec 32) (size : Byte) :
    (flashPayload addr size)[4]?.map BitVec.toNat = some (min size.toNat 29) := by
  change some (BitVec.ofNat 8 (min size.toNat 29)).toNat = _
  rw [BitVec.toNat_ofNat, Nat.mod_eq_of_lt (by omega)]

/-- The clamped size fits FLASH_SIZE (10_state.md R27). -/
theorem clampedSize_toNat (size : Byte) : (BitVec.ofNat 5 (clampedSize size)).toNat = min size.toNat 29 := by
  rw [BitVec.toNat_ofNat, clampedSize, Config.maxFlashRead, Nat.mod_eq_of_lt (by omega)]

/-- Settles O20: the request is the subcommand frame with the neutral rumble and five payload bytes. -/
theorem flashReqBuildsTheRequest : Obligations.FlashReqBuildsTheRequest := by
  intro s addr size hidle
  have hlen : (flashPayload addr size).length = 5 := rfl
  refine ⟨subcmdFrame s.seq rumbleNeutral Config.subcmdFlashRead (flashPayload addr size),
    BitVec.ofNat 5 (clampedSize size), ?_, clampedSize_toNat size, subcmdFrame_length _ _ _ _ (by omega), rfl,
    frame_seq rfl, fun k hk => subcmdFrame_rumble _ _ _ _ hk, rfl, fun k hk => ?_, flashPayload_size addr size,
    fun k hlo => subcmdFrame_padding _ _ _ _ k (by omega)⟩
  · simp only [exec, execFlashReq, hidle]
    rfl
  · rw [subcmdFrame_payload _ _ _ _ k (by omega)]
    exact flashPayload_addr addr size hk

end Sys2Proof.Machine
end

section
/-! PROOFS. How FLASH_REPLY and DECODE read a frame (41_flash.md R122, 42_parser.md R140 to R146), and the words of
CLASSIFY and READ_STATE (30_encoding.md R75, R77). -/

namespace Sys2Proof.Machine

/-! ### Flash replies (41_flash.md R122) -/

/-- In a frame that is not short, the bytes that make it a flash reply (30_encoding.md R81). -/
theorem isFlashReply_iff {frame : List Byte} (hlen : 49 ≤ frame.length) :
    isFlashReply frame = true ↔ frame[0]? = some 0x21#8 ∧ frame[14]? = some 0x10#8 := by
  rw [getElem?_eq_frameByte frame 0 (by omega), getElem?_eq_frameByte frame 14 (by omega)]
  simp [isFlashReply, Config.ridStdReply, Config.echoPos, Config.subcmdFlashRead]

/-- A byte below 128 has bit 7 clear. -/
theorem getLsbD_seven_of_lt {b : Byte} (h : b.toNat < 128) : b.getLsbD 7 = false :=
  Nat.testBit_lt_two_pow h

/-- Settles O23: each premise takes the execution to its check. -/
theorem flashReplyRejections : Obligations.FlashReplyRejections := by
  intro s frame
  refine ⟨fun hidle => ?_, fun hpend hshort => ?_, fun hpend hlen hother => ?_,
    fun ack hpend hlen hid hecho hack hclear => ?_⟩
  · simp [exec, execFlashReply, hidle, State.respond_eq]
  · simp [exec, execFlashReply, hpend, Config.reportLen, hshort, State.respond_eq]
  · have hmatch : ¬ isFlashReply frame = true := by
      rw [isFlashReply_iff hlen]
      tauto
    simp [exec, execFlashReply, hpend, Config.reportLen, Nat.not_lt.2 hlen, hmatch, State.respond_eq]
  · have hmatch := (isFlashReply_iff hlen).2 ⟨hid, hecho⟩
    have hnack : replyAck frame = false := by
      rw [replyAck, Config.ackPos, frameByte_of_getElem? _ _ _ hack]
      exact getLsbD_seven_of_lt hclear
    simp [exec, execFlashReply, hpend, Config.reportLen, Nat.not_lt.2 hlen, hmatch, hnack, State.respond_eq]

/-! ### Reports (42_parser.md R140) -/

/-- DECODE of a report that is not short, with a half selected: the DeviceStatus word of a recognised report. -/
theorem exec_decode_of_half {s : State} {half : Half} {frame : List Byte} (hhalf : s.side.half = some half)
    (hlen : 49 ≤ frame.length) :
    exec (.decode frame) s =
      if isReportId (frameByte frame 0) then s.respond .ok (.deviceStatus (deviceStatus s.toBlock half frame).word)
      else s.raise .unsupportedReport := by
  have hshort : ¬ frame.length < Config.reportLen := Nat.not_lt.2 hlen
  simp only [exec, execDecode, hhalf, if_neg hshort, ite_not]

/-- Frames that agree on a byte have the same frame byte there. -/
theorem frameByte_congr {f g : List Byte} {n : Nat} (h : f[n]? = g[n]?) : frameByte f n = frameByte g n := by
  rw [frameByte, frameByte, List.getD_eq_getElem?_getD, List.getD_eq_getElem?_getD, h]

/-- DECODE with no half selected does not read the report. -/
theorem exec_decode_of_unset {s : State} (hside : s.side = .unset) (frame : List Byte) :
    exec (.decode frame) s = s.raise .unknownSide := by
  simp only [exec, execDecode, hside, Side.half]

/-- Reports with the same bytes 0 and 2, the same buttons and the same stick have the same outcome. -/
theorem exec_decode_congr {s : State} {f g : List Byte} {half : Half} (hhalf : s.side.half = some half)
    (hf : 49 ≤ f.length) (hg : 49 ≤ g.length) (h0 : f[0]? = g[0]?) (h2 : f[2]? = g[2]?)
    (hbuttons : buttons f half = buttons g half) (hstick : stick f half = stick g half) :
    exec (.decode f) s = exec (.decode g) s := by
  have hstatus : deviceStatus s.toBlock half f = deviceStatus s.toBlock half g := by
    simp only [deviceStatus, frameByte_congr h0, frameByte_congr h2, hbuttons, hstick]
  rw [exec_decode_of_half hhalf hf, exec_decode_of_half hhalf hg, frameByte_congr h0, hstatus]

/-- Settles O30: the buttons and the stick are read from the bytes of the selected half. -/
theorem decodeReadsOnlyItsBytes : Obligations.DecodeReadsOnlyItsBytes := by
  intro s f g hf hg h0 h2 h4 hleft hright
  cases hside : s.side with
  | unset => rw [exec_decode_of_unset hside, exec_decode_of_unset hside]
  | left =>
    obtain ⟨h5, h6, h7, h8⟩ := hleft hside
    refine exec_decode_congr (half := .left) (by rw [hside]; rfl) hf hg h0 h2 ?_ ?_
    · simp only [buttons, buttonsLeft, frameByte_congr h4, frameByte_congr h5]
    · simp only [stick, frameByte_congr h6, frameByte_congr h7, frameByte_congr h8]
  | right =>
    obtain ⟨h3, h9, h10, h11⟩ := hright hside
    refine exec_decode_congr (half := .right) (by rw [hside]; rfl) hf hg h0 h2 ?_ ?_
    · simp only [buttons, buttonsRight, frameByte_congr h3, frameByte_congr h4]
    · simp only [stick, frameByte_congr h9, frameByte_congr h10, frameByte_congr h11]

/-! ### The fields of a report as numbers (30_encoding.md R73 to R76) -/

/-- The battery code of report byte 2 (42_parser.md R141). -/
theorem battery_code_toNat (b : Byte) :
    (battery b).code.toNat =
      if b.toNat / 16 = 0 then 0 else if b.toNat / 16 = 2 then 1 else if b.toNat / 16 = 4 then 2
      else if b.toNat / 16 = 6 then 3 else if b.toNat / 16 = 8 then 4 else 7 := by
  have hlevel : (b.extractLsb' 4 4).toNat = b.toNat / 16 := by
    have := b.isLt
    rw [BitVec.extractLsb'_toNat, Nat.shiftRight_eq_div_pow]
    omega
  have hlt : b.toNat / 16 < 16 := by
    have := b.isLt
    omega
  rw [battery, hlevel]
  generalize b.toNat / 16 = level at hlt
  interval_cases level <;> rfl

/-- The connection kind of report byte 2 (42_parser.md R142). -/
theorem connection_toNat (b : Byte) : (connection b).toNat = b.toNat / 2 % 4 := by
  rw [connection, BitVec.extractLsb'_toNat, Nat.shiftRight_eq_div_pow]

/-- A bit of a byte as a number. -/
theorem bitOf_toNat (b : Byte) (n : Nat) : (bitOf b n).toNat = b.toNat / 2 ^ n % 2 := by
  rw [bitOf, BitVec.extractLsb'_toNat, Nat.shiftRight_eq_div_pow]

/-- A button byte and four more buttons above it as a number. -/
theorem buttonWord_toNat (b : Byte) (x8 x9 x10 x11 : BitVec 1) :
    (fieldAt 12 0 b ||| fieldAt 12 8 x8 ||| fieldAt 12 9 x9 ||| fieldAt 12 10 x10 ||| fieldAt 12 11 x11).toNat =
      b.toNat + 256 * x8.toNat + 512 * x9.toNat + 1024 * x10.toNat + 2048 * x11.toNat := by
  have hb := b.isLt
  have h8 := x8.isLt
  have h9 := x9.isLt
  have h10 := x10.isLt
  have h11 := x11.isLt
  have f0 := fieldAt_toNat 12 0 b (by omega)
  have f8 := or_fieldAt_toNat 8 _ x8 (f0.trans_lt (by omega)) (by omega)
  have f9 := or_fieldAt_toNat 9 _ x9 (f8.trans_lt (by omega)) (by omega)
  have f10 := or_fieldAt_toNat 10 _ x10 (f9.trans_lt (by omega)) (by omega)
  have f11 := or_fieldAt_toNat 11 _ x11 (f10.trans_lt (by omega)) (by omega)
  omega

/-- BTN of the left half as a number (42_parser.md R143). -/
theorem buttons_left_toNat (frame : List Byte) :
    (buttons frame .left).toNat =
      (frameByte frame 5).toNat + 256 * ((frameByte frame 4).toNat % 2) +
        512 * ((frameByte frame 4).toNat / 8 % 2) + 1024 * ((frameByte frame 4).toNat / 32 % 2) +
          2048 * ((frameByte frame 4).toNat / 128) := by
  have h4 := (frameByte frame 4).isLt
  rw [buttons, buttonsLeft, buttonWord_toNat, bitOf_toNat, bitOf_toNat, bitOf_toNat, bitOf_toNat]
  omega

/-- BTN of the right half as a number (42_parser.md R144). -/
theorem buttons_right_toNat (frame : List Byte) :
    (buttons frame .right).toNat =
      (frameByte frame 3).toNat + 256 * ((frameByte frame 4).toNat / 2 % 2) +
        512 * ((frameByte frame 4).toNat / 4 % 2) + 1024 * ((frameByte frame 4).toNat / 16 % 2) +
          2048 * ((frameByte frame 4).toNat / 128) := by
  have h4 := (frameByte frame 4).isLt
  rw [buttons, buttonsRight, buttonWord_toNat, bitOf_toNat, bitOf_toNat, bitOf_toNat, bitOf_toNat]
  omega

/-- The code of a sample's direction, 0 unless the calibration is LOCKED (30_encoding.md R75, 43_calibration.md R170). -/
theorem directionOf_code_toNat (b : Block) (hor ver : Word12) :
    (directionOf b hor ver).code.toNat =
      (if b.calState = .locked then
        (match classify b hor ver with
          | .invalid => 0 | .center => 1 | .up => 2 | .upperRight => 3 | .right => 4
          | .lowerRight => 5 | .down => 6 | .lowerLeft => 7 | .left => 8 | .upperLeft => 9)
       else 0) := by
  unfold directionOf
  split_ifs
  · cases classify b hor ver <;> rfl
  · rfl

/-- Settles O39: CLASSIFY only responds, with that code. -/
theorem classifyAnswersADirection : Obligations.ClassifyAnswersADirection := fun s hor ver =>
  ⟨_, classify_onlyResponds hor ver s, directionOf_code_toNat s.toBlock hor ver⟩

/-! ### The DeviceStatus word of a report (30_encoding.md R76) -/

/-- Each field of the DeviceStatus word of a report, and the zeros above them. -/
theorem deviceStatus_word_fields {b : Block} {half : Half} {frame : List Byte} {w : BitVec 64}
    (hw : w = (deviceStatus b half frame).word) :
    w.extractLsb' 0 8 = frameByte frame 0 ∧
    (w.extractLsb' 8 3).toNat = (battery (frameByte frame 2)).code.toNat ∧
    (w.extractLsb' 11 2).toNat = (connection (frameByte frame 2)).toNat ∧
    (w.extractLsb' 13 1).toNat = half.bit.toNat ∧
    (w.extractLsb' 14 12).toNat = (buttons frame half).toNat ∧
    (w.extractLsb' 26 12).toNat = (stick frame half).1.toNat ∧
    (w.extractLsb' 38 12).toNat = (stick frame half).2.toNat ∧
    (w.extractLsb' 50 4).toNat = (directionOf b (w.extractLsb' 26 12) (w.extractLsb' 38 12)).code.toNat ∧
    w.extractLsb' 54 10 = 0#10 := by
  subst hw
  simp [deviceStatus]

/-- The report ids that DECODE recognises (30_encoding.md R70). -/
theorem isReportId_of_eq {rid : Byte} (h : rid = 0x21#8 ∨ rid = 0x30#8 ∨ rid = 0x31#8) : isReportId rid = true := by
  obtain rfl | rfl | rfl := h <;> decide

/-- DECODE of a recognised report only responds, with the DeviceStatus word. -/
theorem decode_recognised {s : State} {half : Half} {frame : List Byte} {b0 : Byte} (hhalf : s.side.half = some half)
    (hlen : 49 ≤ frame.length) (hrid : b0 = 0x21#8 ∨ b0 = 0x30#8 ∨ b0 = 0x31#8) (h0 : frame[0]? = some b0) :
    OnlyResponds (.decode frame) s ⟨.ok, .deviceStatus (deviceStatus s.toBlock half frame).word⟩ := by
  rw [OnlyResponds, exec_decode_of_half hhalf hlen, frameByte_of_getElem? _ _ _ h0, if_pos (isReportId_of_eq hrid),
    State.respond_eq]

/-- Settles O27: each field as a number of the bytes of the left half. -/
theorem decodeReadsTheLeftHalf : Obligations.DecodeReadsTheLeftHalf := by
  intro s frame b0 b2 b4 b5 b6 b7 b8 hside hlen hrid h0 h2 h4 h5 h6 h7 h8
  refine ⟨_, decode_recognised (half := .left) (by rw [hside]; rfl) hlen hrid h0, ?_⟩
  generalize hw : (deviceStatus s.toBlock .left frame).word = w
  have hfields := deviceStatus_word_fields hw.symm
  rw [buttons_left_toNat, battery_code_toNat, connection_toNat, directionOf_code_toNat, stick, unpack12_fst_toNat,
    unpack12_snd_toNat, frameByte_of_getElem? _ _ _ h0, frameByte_of_getElem? _ _ _ h2,
    frameByte_of_getElem? _ _ _ h4, frameByte_of_getElem? _ _ _ h5, frameByte_of_getElem? _ _ _ h6,
    frameByte_of_getElem? _ _ _ h7, frameByte_of_getElem? _ _ _ h8] at hfields
  exact hfields

/-- Settles O28: each field as a number of the bytes of the right half. -/
theorem decodeReadsTheRightHalf : Obligations.DecodeReadsTheRightHalf := by
  intro s frame b0 b2 b3 b4 b9 b10 b11 hside hlen hrid h0 h2 h3 h4 h9 h10 h11
  refine ⟨_, decode_recognised (half := .right) (by rw [hside]; rfl) hlen hrid h0, ?_⟩
  generalize hw : (deviceStatus s.toBlock .right frame).word = w
  have hfields := deviceStatus_word_fields hw.symm
  rw [buttons_right_toNat, battery_code_toNat, connection_toNat, directionOf_code_toNat, stick, unpack12_fst_toNat,
    unpack12_snd_toNat, frameByte_of_getElem? _ _ _ h0, frameByte_of_getElem? _ _ _ h2,
    frameByte_of_getElem? _ _ _ h3, frameByte_of_getElem? _ _ _ h4, frameByte_of_getElem? _ _ _ h9,
    frameByte_of_getElem? _ _ _ h10, frameByte_of_getElem? _ _ _ h11] at hfields
  exact hfields

/-! ### The snapshot (30_encoding.md R77) -/

/-- Settles O45: each field is at its place in the snapshot, SIDE, CAL_STATE and FLASH_PEND as their codes. -/
theorem readStateReturnsEveryRegister : Obligations.ReadStateReturnsEveryRegister := by
  intro s
  refine ⟨_, readState_onlyResponds s, snapWord_seq _, snapWord_side _, snapWord_calState _, ?_, snapWord_flashSize _,
    snapWord_dz _, snapWord_cx _, snapWord_cy _, snapWord_minx _, snapWord_miny _, snapWord_maxx _, snapWord_maxy _,
    snapWord_top _⟩
  rw [snapWord_flashPend]
  cases s.flashPend <;> rfl

end Sys2Proof.Machine
end

section
/-! PROOFS. What the framer rejects, and the numbers the frames of a run carry (40_framer.md R100, R101, R103). -/

namespace Sys2Proof.Machine

/-! ### The payload limit (40_framer.md R101) -/

/-- Settles O16: both forms build the subcommand frame, and a payload over 38 bytes is rejected there. -/
theorem oversizedPayloadIsRejected : Obligations.OversizedPayloadIsRejected := fun s sc rb pay htoo =>
  ⟨s.buildSubcmd_tooLarge rumbleNeutral sc pay htoo, s.buildSubcmd_tooLarge rb sc pay htoo⟩

/-! ### Numbered frames (40_framer.md R103) -/

/-- The frames carry consecutive numbers from `q` on, modulo 16. -/
def NumberedFrom (q : Nat) (frames : List Response) : Prop :=
  ∀ (j : Nat) (f : List Byte), frames[j]? = some ⟨.ok, .frame f⟩ → f[1]?.map BitVec.toNat = some ((q + j) % 16)

/-- No frame needs no number. -/
theorem NumberedFrom.nil (q : Nat) : NumberedFrom q [] := nofun

/-- One frame carries the first number. -/
theorem NumberedFrom.singleton {q : BitVec 4} {f : List Byte} (hf : f[1]?.map BitVec.toNat = some q.toNat) :
    NumberedFrom q.toNat [⟨.ok, .frame f⟩] := by
  intro j g hg
  cases j with
  | zero =>
    obtain rfl : f = g := by simpa using hg
    rw [hf, Nat.add_zero, Nat.mod_eq_of_lt q.isLt]
  | succ j => cases hg

/-- Frames that go on where others end are numbered with them. -/
theorem NumberedFrom.append {q : Nat} {xs ys : List Response} (hxs : NumberedFrom q xs)
    (hys : NumberedFrom ((q + xs.length) % 16) ys) : NumberedFrom q (xs ++ ys) := by
  intro j f hj
  obtain hlt | hge := Nat.lt_or_ge j xs.length
  · rw [List.getElem?_append_left hlt] at hj
    exact hxs j f hj
  · rw [List.getElem?_append_right hge] at hj
    rw [hys _ f hj]
    congr 1
    omega

/-- From `s` to `t` the served block gave responses whose frames are numbered from the counter of `s` on, and the
counter of `t` is the number after theirs. -/
def NumbersFrames (s t : State) : Prop :=
  ∃ given : List Response, t.responses = s.responses ++ given ∧
    t.seq.toNat = (s.seq.toNat + (given.filter Response.isFrame).length) % 16 ∧
    NumberedFrom s.seq.toNat (given.filter Response.isFrame)

theorem NumbersFrames.refl (s : State) : NumbersFrames s s :=
  ⟨[], (List.append_nil _).symm, (Nat.mod_eq_of_lt s.seq.isLt).symm, .nil _⟩

theorem NumbersFrames.trans {s t u : State} (hst : NumbersFrames s t) (htu : NumbersFrames t u) :
    NumbersFrames s u := by
  obtain ⟨xs, hxs, hseq, hnum⟩ := hst
  obtain ⟨ys, hys, hseq', hnum'⟩ := htu
  refine ⟨xs ++ ys, by rw [hys, hxs, List.append_assoc], ?_, ?_⟩
  · rw [List.filter_append, List.length_append]
    omega
  · rw [List.filter_append]
    exact hnum.append (hseq ▸ hnum')

/-- A command numbers the frame it builds. -/
theorem exec_numbersFrames {i : Instr} {s t : State} (h : exec i s = .next t) : NumbersFrames s t := by
  obtain ⟨hseq, r, hresp, hr⟩ | ⟨hseq, f, hresp, hf⟩ := seqAdvancesExactlyWithAFrame i s t h
  · have hnone : [r].filter Response.isFrame = [] := by rw [List.filter_singleton, hr]; rfl
    refine ⟨[r], hresp, ?_, by rw [hnone]; exact .nil _⟩
    rw [hnone, hseq]
    exact (Nat.mod_eq_of_lt s.seq.isLt).symm
  · exact ⟨[⟨.ok, .frame f⟩], hresp, hseq, .singleton hf⟩

/-- With no turn listed a step numbers the frame it builds, and no turn is listed after it. -/
theorem step_numbersFrames {s t : State} (hturns : s.turns = []) (h : step s = .next t) :
    t.turns = [] ∧ NumbersFrames s t := by
  have hcases := step_cases s t h
  rw [s.takeTurn_nil hturns] at hcases
  obtain rfl | ⟨i, rest, -, hexec⟩ := hcases
  · exact ⟨hturns, .refl _⟩
  · obtain ⟨-, -, hkept, -⟩ := exec_frame hexec
    have hcommand := exec_numbersFrames hexec
    exact ⟨hkept.trans hturns, hcommand⟩

/-- Settles O19: by induction on the steps of the run, each of which numbers the frame it builds. -/
theorem seqCountsFramesOverARun : Obligations.SeqCountsFramesOverARun := by
  intro n s t hturns hrun
  change NumbersFrames s t
  induction n generalizing s with
  | zero =>
    obtain rfl := run_zero s t hrun
    exact .refl _
  | succ n ih =>
    obtain ⟨u, hstep, hrest⟩ := run_succ n s t hrun
    obtain ⟨hstill, hfirst⟩ := step_numbersFrames hturns hstep
    exact hfirst.trans (ih u hstill hrest)

end Sys2Proof.Machine
end

section
/-! PROOFS. A pending read and the commands FLASH_REQ and FLASH_TIMEOUT, and the clamp of a request's size (41_flash.md
R121, R125). -/

namespace Sys2Proof.Machine

/-! ### While a read is pending (41_flash.md R121, R125) -/

/-- FLASH_REQ while a read is pending only raises FLASH_BUSY. -/
theorem exec_flashReq_of_pending {s : State} (hpend : s.flashPend = true) (addr : BitVec 32) (size : Byte) :
    exec (.flashReq addr size) s = s.raise .flashBusy :=
  if_pos hpend

/-- FLASH_TIMEOUT ends a pending read. -/
theorem exec_flashTimeout_of_pending {s : State} (hpend : s.flashPend = true) :
    exec .flashTimeout s = { s with flashPend := false }.raise .timeout :=
  if_neg (not_not.2 hpend)

/-- FLASH_TIMEOUT without a pending read only raises NO_PENDING_READ. -/
theorem exec_flashTimeout_of_idle {s : State} (hidle : s.flashPend = false) :
    exec .flashTimeout s = s.raise .noPendingRead :=
  if_pos (ne_true_of_eq_false hidle)

/-- Settles O21: the check of FLASH_PEND comes before anything is written. -/
theorem flashReqIsBusyWhilePending : Obligations.FlashReqIsBusyWhilePending := by
  intro s addr size hpend
  rw [exec_flashReq_of_pending hpend, State.raise_eq, State.respond_eq]

/-- Settles O25: FLASH_PEND decides the outcome. -/
theorem flashTimeoutEndsThePendingRead : Obligations.FlashTimeoutEndsThePendingRead := by
  refine fun s => ⟨fun hpend => ?_, fun hidle => ?_⟩
  · rw [exec_flashTimeout_of_pending hpend, State.raise_eq, State.respond_eq]
  · rw [exec_flashTimeout_of_idle hidle, State.raise_eq, State.respond_eq]

/-! ### The clamp of the size (41_flash.md R121) -/

/-- FLASH_REQ reads its size only through the clamp. -/
theorem exec_flashReq_congr {size size' : Byte} (h : clampedSize size = clampedSize size') (addr : BitVec 32)
    (s : State) : exec (.flashReq addr size) s = exec (.flashReq addr size') s := by
  simp only [exec, execFlashReq, flashPayload, h]

/-- A size over 29 is clamped to 29. -/
theorem clampedSize_of_lt {size : Byte} (h : 29 < size.toNat) : clampedSize size = 29 :=
  Nat.min_eq_right h.le

/-- Settles O22: the two sizes have the same clamp. -/
theorem oversizedFlashReqActsAsTwentyNine : Obligations.OversizedFlashReqActsAsTwentyNine :=
  fun s addr _ hover => exec_flashReq_congr (clampedSize_of_lt hover) addr s

end Sys2Proof.Machine
end

section
/-! PROOFS. What DECODE rejects (42_parser.md R140). -/

namespace Sys2Proof.Machine

/-- A side that is set selects a half. -/
theorem Side.exists_half_of_ne_unset {side : Side} (h : side ≠ .unset) : ∃ half, side.half = some half := by
  cases side with
  | unset => exact absurd rfl h
  | left => exact ⟨.left, rfl⟩
  | right => exact ⟨.right, rfl⟩

/-- DECODE of a short report, with a half selected, only raises TRUNCATED. -/
theorem exec_decode_of_short {s : State} {half : Half} {frame : List Byte} (hhalf : s.side.half = some half)
    (hshort : frame.length < 49) : exec (.decode frame) s = s.raise .truncated := by
  have hlen : frame.length < Config.reportLen := hshort
  simp only [exec, execDecode, hhalf, if_pos hlen]

/-- The report ids that DECODE does not recognise (30_encoding.md R70). -/
theorem isReportId_of_ne {rid : Byte} (hstd : rid ≠ 0x21#8) (hfull : rid ≠ 0x30#8) (hnfc : rid ≠ 0x31#8) :
    ¬ isReportId rid = true := by
  simp [isReportId, Config.ridStdReply, Config.ridStdFull, Config.ridNfcIr, hstd, hfull, hnfc]

/-- Settles O29: SIDE is checked first, then the length, then byte 0. -/
theorem decodeRejections : Obligations.DecodeRejections := by
  refine fun s frame => ⟨fun hunset => ?_, fun hset hshort => ?_, fun hset hlen hstd hfull hnfc => ?_⟩
  · rw [exec_decode_of_unset hunset, State.raise_eq, State.respond_eq]
  · obtain ⟨half, hhalf⟩ := Side.exists_half_of_ne_unset hset
    rw [exec_decode_of_short hhalf hshort, State.raise_eq, State.respond_eq]
  · obtain ⟨half, hhalf⟩ := Side.exists_half_of_ne_unset hset
    simp only [getElem?_eq_frameByte frame 0 (by omega), ne_eq, Option.some.injEq] at hstd hfull hnfc
    rw [exec_decode_of_half hhalf hlen, if_neg (isReportId_of_ne hstd hfull hnfc), State.raise_eq, State.respond_eq]

end Sys2Proof.Machine
end

section
/-! PROOFS. The calibration commands in every state (43_calibration.md R160 to R166). -/

namespace Sys2Proof.Machine

/-! ### SET_SIDE (43_calibration.md R160) -/

/-- SET_SIDE once a calibration has been offered only raises SEQUENCE_ERROR. -/
theorem exec_setSide_of_offered {s : State} (hoffered : s.calState ≠ .empty) (pid : BitVec 16) :
    exec (.setSide pid) s = s.raise .sequenceError :=
  if_pos hoffered

/-- SET_SIDE before a calibration is offered selects the half of the product id, or raises UNKNOWN_SIDE. -/
theorem exec_setSide_of_empty {s : State} (hempty : s.calState = .empty) (pid : BitVec 16) :
    exec (.setSide pid) s =
      (sideOfPid pid).elim (s.raise .unknownSide) fun side => { s with side := side }.respond .ok .none := by
  simp only [exec, execSetSide, if_neg (not_not.2 hempty)]
  cases sideOfPid pid <;> rfl

/-- The product ids, as numbers, and the halves they select (30_encoding.md R83). -/
theorem sideOfPid_eq (pid : BitVec 16) :
    sideOfPid pid =
      if pid.toNat = 0x2006 then some .left else if pid.toNat = 0x2007 then some .right else none := by
  simp only [sideOfPid, Config.pidLeft, Config.pidRight, ← BitVec.toNat_inj, BitVec.toNat_ofNat]

/-- Settles O31: CAL_STATE is checked first, then the product id decides. -/
theorem setSideFollowsTheProductId : Obligations.SetSideFollowsTheProductId := by
  intro s pid
  by_cases hempty : s.calState = .empty
  · rw [if_neg (not_not.2 hempty), exec_setSide_of_empty hempty, sideOfPid_eq]
    split_ifs <;> rfl
  · rw [if_pos hempty, exec_setSide_of_offered hempty, State.raise_eq, State.respond_eq]

/-! ### UNMARSHAL (43_calibration.md R162) -/

/-- The half a side selects is the one of its name. -/
theorem Side.half_eq_some_iff (side : Side) (half : Half) :
    side.half = some half ↔ side = .left ∧ half = .left ∨ side = .right ∧ half = .right := by
  cases side <;> cases half <;> decide

/-- UNMARSHAL with no side set only raises UNKNOWN_SIDE. -/
theorem exec_unmarshal_of_unset {s : State} (hunset : s.side = .unset) (raw : Raw9) :
    exec (.unmarshal raw) s = s.raise .unknownSide := by
  simp only [exec, execUnmarshal, hunset, Side.half]

/-- UNMARSHAL with a half selected only responds, with the unmarshalled bank. -/
theorem exec_unmarshal_of_half {s : State} {half : Half} (hhalf : s.side.half = some half) (raw : Raw9) :
    exec (.unmarshal raw) s = s.respond .ok (.calibration (unmarshal raw half).word) := by
  simp only [exec, execUnmarshal, hhalf]

/-- The fields of the calibration word in the order of their places (30_encoding.md R82). -/
theorem CalBank.word_field_toNat (c : CalBank) {k : Nat} (hk : k < 6) :
    (c.word.extractLsb' (12 * k) 12).toNat =
      [c.cx.toNat, c.cy.toNat, c.minx.toNat, c.miny.toNat, c.maxx.toNat, c.maxy.toNat].getD k 0 := by
  interval_cases k <;> simp

/-- Settles O32: each field is at its place in the word, and each is one of the three packed pairs of its half. -/
theorem unmarshalReturnsTheSixFields : Obligations.UnmarshalReturnsTheSixFields := by
  refine fun s raw => ⟨fun hunset => ?_, fun hset => ?_⟩
  · rw [exec_unmarshal_of_unset hunset, State.raise_eq, State.respond_eq]
  · obtain ⟨half, hhalf⟩ := Side.exists_half_of_ne_unset hset
    refine ⟨_, exec_unmarshal_of_half hhalf raw, fun k hk => ?_⟩
    rw [CalBank.word_field_toNat _ hk]
    obtain ⟨hside, rfl⟩ | ⟨hside, rfl⟩ := (Side.half_eq_some_iff _ _).1 hhalf <;>
      simp [hside, unmarshal, unpack12_fst_toNat, unpack12_snd_toNat]

/-! ### Loading a section (43_calibration.md R163 to R165) -/

/-- No section is accepted outside EMPTY and NEED_FACTORY. -/
theorem CalState.not_acceptsLoad_iff (c : CalState) :
    ¬ c.acceptsLoad = true ↔ c ≠ .empty ∧ c ≠ .needFactory := by
  rw [c.acceptsLoad_iff, not_or]

/-- The section is erased when each of its bytes is 0xFF (43_calibration.md R164). -/
theorem all255_iff (raw : Raw9) : all255 raw = true ↔ ∀ b ∈ raw.bytes, b = 0xFF#8 := by
  simp only [all255, List.all_eq_true, beq_iff_eq]

/-- CAL_LOAD_USER with no side set only raises UNKNOWN_SIDE. -/
theorem exec_calLoadUser_of_unset {s : State} (hunset : s.side = .unset) (raw : Raw9) :
    exec (.calLoadUser raw) s = s.raise .unknownSide := by
  simp only [exec, execCalLoadUser, hunset, Side.half]

/-- CAL_LOAD_USER with a half selected: the check of CAL_STATE, then that for an erased section, then the load. -/
theorem exec_calLoadUser_of_half {s : State} {half : Half} (hhalf : s.side.half = some half) (raw : Raw9) :
    exec (.calLoadUser raw) s =
      if ¬ s.calState.acceptsLoad = true then s.raise .sequenceError
      else if all255 raw = true then { s with calState := .needFactory }.respond .needFactory .none
      else (s.loadBank (unmarshal raw half)).respond .ok .none := by
  simp only [exec, execCalLoadUser, hhalf]

/-- Settles O34: SIDE is checked first, then CAL_STATE, then the bytes. -/
theorem calLoadUserLoadsOrAsksForFactory : Obligations.CalLoadUserLoadsOrAsksForFactory := by
  refine fun s raw => ⟨fun hunset => ?_, fun half hside => ?_⟩
  · rw [exec_calLoadUser_of_unset hunset, State.raise_eq, State.respond_eq]
  · simp only [exec_calLoadUser_of_half ((Side.half_eq_some_iff _ _).2 hside), CalState.not_acceptsLoad_iff,
      all255_iff]
    rfl

/-- CAL_LOAD_FACTORY with no side set only raises UNKNOWN_SIDE. -/
theorem exec_calLoadFactory_of_unset {s : State} (hunset : s.side = .unset) (raw : Raw9) :
    exec (.calLoadFactory raw) s = s.raise .unknownSide := by
  simp only [exec, execCalLoadFactory, hunset, Side.half]

/-- CAL_LOAD_FACTORY with a half selected: the check of CAL_STATE, then the load. -/
theorem exec_calLoadFactory_of_half {s : State} {half : Half} (hhalf : s.side.half = some half) (raw : Raw9) :
    exec (.calLoadFactory raw) s =
      if ¬ s.calState.acceptsLoad = true then s.raise .sequenceError
      else (s.loadBank (unmarshal raw half)).respond .ok .none := by
  simp only [exec, execCalLoadFactory, hhalf]

/-- Settles O35: SIDE is checked first, then CAL_STATE, and the bytes are never tested. -/
theorem calLoadFactoryLoads : Obligations.CalLoadFactoryLoads := by
  refine fun s raw => ⟨fun hunset => ?_, fun half hside => ?_⟩
  · rw [exec_calLoadFactory_of_unset hunset, State.raise_eq, State.respond_eq]
  · simp only [exec_calLoadFactory_of_half ((Side.half_eq_some_iff _ _).2 hside), CalState.not_acceptsLoad_iff]
    rfl

/-! ### CAL_SET_DEADZONE (43_calibration.md R166) -/

/-- CAL_SET_DEADZONE in LOADED writes the deadzone and locks the calibration. -/
theorem exec_calSetDeadzone_of_loaded {s : State} (hloaded : s.calState = .loaded) (params : Params5) :
    exec (.calSetDeadzone params) s = { s with dz := deadzoneOf params, calState := .locked }.respond .ok .none :=
  if_neg (not_not.2 hloaded)

/-- CAL_SET_DEADZONE outside LOADED only raises SEQUENCE_ERROR. -/
theorem exec_calSetDeadzone_of_ne_loaded {s : State} (hother : s.calState ≠ .loaded) (params : Params5) :
    exec (.calSetDeadzone params) s = s.raise .sequenceError :=
  if_pos hother

/-- Settles O36: CAL_STATE decides the outcome, and the deadzone is byte 3. -/
theorem calSetDeadzoneLocks : Obligations.CalSetDeadzoneLocks := by
  intro s p0 p1 p2 p3 p4
  split_ifs with hloaded
  · rw [exec_calSetDeadzone_of_loaded hloaded, State.respond_eq, deadzoneOf]
  · rw [exec_calSetDeadzone_of_ne_loaded hloaded, State.raise_eq, State.respond_eq]

end Sys2Proof.Machine
end

section
/-! PROOFS. The integer classifier: its tests, the ranges of its values, and the angle table it implements
(43_calibration.md R171 to R182). -/

namespace Sys2Proof.Machine

/-! ### The classifier's tests (43_calibration.md R172 to R175) -/

/-- Settles O40: of the four ends of the classifier two are Invalid, and the sector never is. -/
theorem invalidDirectionInExactlyThreeCases : Obligations.InvalidDirectionInExactlyThreeCases := by
  intro b h v midx midy hx hy
  by_cases hlocked : b.calState = .locked
  · rw [directionOf, if_pos hlocked, classify_eq b h v midx midy hx hy, or_iff_right (not_not.2 hlocked), ← or_assoc,
      ← not_le]
    split_ifs with hrange hnear hdiv
    · exact iff_of_true rfl (.inl hrange)
    · exact iff_of_false nofun (not_or.2 ⟨hrange, fun hfar => hfar.1 hnear⟩)
    · exact iff_of_true rfl (.inr ⟨hnear, hdiv⟩)
    · exact iff_of_false (sector_proper _ _ _ _).1 (not_or.2 ⟨hrange, fun hfar => hdiv hfar.2⟩)
  · exact iff_of_true (if_neg hlocked) (.inl hlocked)

/-- Settles O41: past the range test, only the deadzone test answers Center. -/
theorem centerExactlyWithinTheDeadzone : Obligations.CenterExactlyWithinTheDeadzone := by
  intro b h v midx midy hx hy hrangex hrangey
  rw [classify_eq b h v midx midy hx hy, if_neg (not_or.2 ⟨hrangex, hrangey⟩)]
  split_ifs with hnear hdiv
  · exact iff_of_true rfl hnear
  · exact iff_of_false nofun hnear
  · exact iff_of_false (sector_proper _ _ _ _).2 hnear

/-- The classifier comes to its sector step with proper ranges, outside the deadzone, with positive divisors. -/
theorem classify_eq_sector {b : Block} {h v : Word12} {midx midy : Int}
    (hx : midx = (b.cx.toNat : Int) + ((b.maxx.toNat : Int) - b.minx.toNat) / 2)
    (hy : midy = (b.cy.toNat : Int) + ((b.maxy.toNat : Int) - b.miny.toNat) / 2)
    (hrangex : ¬ (b.minx = 0#12 ∧ b.maxx = 0#12)) (hrangey : ¬ (b.miny = 0#12 ∧ b.maxy = 0#12))
    (hout : (b.dz.toNat : Int) ^ 2 < ((h.toNat : Int) - midx) ^ 2 + ((v.toNat : Int) - midy) ^ 2)
    (hdivx : 0 < midx - 1) (hdivy : 0 < midy - 1) :
    classify b h v = sector (clampInt (h.toNat - midx) (-(midx - 1)) (midx - 1))
      (clampInt (v.toNat - midy) (-(midy - 1)) (midy - 1)) (midx - 1) (midy - 1) := by
  rw [classify_eq b h v midx midy hx hy, if_neg (not_or.2 ⟨hrangex, hrangey⟩), if_neg hout.not_ge,
    if_neg (not_or.2 ⟨hdivx.not_ge, hdivy.not_ge⟩)]

/-! ### The ranges of the classifier's values (43_calibration.md R181) -/

/-- The ranges on one axis: the sum of its ends, its centre, the offset of a sample, and its divisor. -/
theorem axisOf_ranges {c lo hi w : Word12} {a : Axis} {d : Int} (ha : a = axisOf c lo hi) (hd : d = w.int - a.mid) :
    (-4095 ≤ a.lo + a.hi ∧ a.lo + a.hi ≤ 12285) ∧ (-2048 ≤ a.mid ∧ a.mid ≤ 6142) ∧ (-6142 ≤ d ∧ d ≤ 6143) ∧
      (0 < a.divisor → 1 ≤ a.divisor ∧ a.divisor ≤ 6141) := by
  subst ha hd
  have hc := c.isLt
  have hlo := lo.isLt
  have hhi := hi.isLt
  have hw := w.isLt
  simp only [Axis.divisor, Axis.mid, axisOf, Word12.int]
  omega

/-- The square of an offset (43_calibration.md R181). -/
theorem sq_offset_le {d : Int} (hd : -6142 ≤ d ∧ d ≤ 6143) : d ^ 2 ≤ 6143 ^ 2 :=
  sq_le_sq' (by omega) hd.2

/-- A clamped value is within its bounds. -/
theorem abs_clampInt_le {d : Int} (v : Int) (hd : 0 ≤ d) : |clampInt v (-d) d| ≤ d := by
  rw [abs_le, clampInt]
  omega

/-- A quantity of the sector step: the square of an offset clamped by one divisor, times the square of the other
divisor (43_calibration.md R177, R181). -/
theorem sectorQuantity_range {v p q : Int} (hp : 1 ≤ p ∧ p ≤ 6141) (hq : 1 ≤ q ∧ q ≤ 6141) :
    0 ≤ clampInt v (-p) p ^ 2 * q ^ 2 ∧ clampInt v (-p) p ^ 2 * q ^ 2 ≤ 6141 ^ 4 ∧
      3 * (clampInt v (-p) p ^ 2 * q ^ 2) < 2 ^ 52 := by
  have hclamp : clampInt v (-p) p ^ 2 ≤ 6141 ^ 2 :=
    sq_le_sq.2 ((abs_clampInt_le v (by omega)).trans (hp.2.trans (le_abs_self _)))
  have hdivisor : q ^ 2 ≤ 6141 ^ 2 := sq_le_sq' (by omega) hq.2
  have hle : clampInt v (-p) p ^ 2 * q ^ 2 ≤ 6141 ^ 2 * 6141 ^ 2 :=
    mul_le_mul hclamp hdivisor (sq_nonneg q) (by norm_num)
  exact ⟨by positivity, by omega, by omega⟩

/-- Settles O44: the ranges of each axis, and from them those of the squares and of the two quantities. -/
theorem classifierValuesStayInRange : Obligations.ClassifierValuesStayInRange := by
  intro b h v x y dx dy A B hx hy hdx hdy hA hB
  obtain ⟨hsumx, hmidx, hoffx, hdivx⟩ := axisOf_ranges hx hdx
  obtain ⟨hsumy, hmidy, hoffy, hdivy⟩ := axisOf_ranges hy hdy
  have hsqx := sq_offset_le hoffx
  have hsqy := sq_offset_le hoffy
  have hdz : (b.dz.toNat : Int) ^ 2 ≤ 255 ^ 2 := by
    have := b.dz.isLt
    gcongr
    omega
  refine ⟨hsumx, hsumy, hmidx, hmidy, hoffx, hoffy, by omega, by omega, by omega, hdivx, hdivy,
    fun hposx hposy => ?_⟩
  rw [hA, hB]
  exact ⟨sectorQuantity_range (hdivx hposx) (hdivy hposy), sectorQuantity_range (hdivy hposy) (hdivx hposx)⟩

/-! ### The two quantities of the sector step never tie (43_calibration.md R180) -/

/-- A clamped value is zero only where the value is: clamping keeps zero (43_calibration.md R176). -/
theorem clampInt_eq_zero_iff {d : Int} (v : Int) (hd : 0 < d) : clampInt v (-d) d = 0 ↔ v = 0 := by
  rw [clampInt]
  omega

/-- Three is no square, so only zero is a square and three times a square at once. -/
theorem eq_zero_of_sq_eq_three_mul_sq {m n : Int} (h : m ^ 2 = 3 * n ^ 2) : m = 0 ∧ n = 0 := by
  have hn : n = 0 := by
    by_contra hn
    have hne : (n : ℚ) ≠ 0 := Int.cast_ne_zero.2 hn
    have hq : (m : ℚ) ^ 2 = 3 * n ^ 2 := by exact_mod_cast h
    have hthree : ((3 : ℕ) : ℚ) = m / n * (m / n) := by
      rw [div_mul_div_comm, ← pow_two, ← pow_two, hq, mul_div_cancel_right₀ _ (pow_ne_zero 2 hne), Nat.cast_ofNat]
    exact Nat.prime_three.prime.not_isSquare (Rat.isSquare_natCast_iff.1 ⟨_, hthree⟩)
  subst hn
  exact ⟨by simpa using h, rfl⟩

/-- The squares of two integers, not both zero, never tie in the comparisons of the sector step. -/
theorem sq_ne_three_mul_sq {m n : Int} (hne : ¬ (m = 0 ∧ n = 0)) :
    m ^ 2 ≠ 3 * n ^ 2 ∧ n ^ 2 ≠ 3 * m ^ 2 :=
  ⟨fun h => hne (eq_zero_of_sq_eq_three_mul_sq h), fun h => hne (eq_zero_of_sq_eq_three_mul_sq h).symm⟩

/-! ### The directions of an angle and of its point (43_calibration.md R179) -/

/-- How far the point (s, t) lies on the left of the line through the origin in the direction of α degrees. -/
noncomputable def leftOf (α s t : ℝ) : ℝ :=
  t * Real.cos (α * Real.pi / 180) - s * Real.sin (α * Real.pi / 180)

/-- A point lies to the left of a direction as its angle to that direction does. -/
theorem IsAngleOf.leftOf_eq {θ s t : ℝ} (h : IsAngleOf θ s t) (α : ℝ) :
    ∃ r : ℝ, 0 < r ∧ leftOf α s t = r * Real.sin ((θ - α) * Real.pi / 180) := by
  obtain ⟨-, -, r, hr, rfl, rfl⟩ := h
  refine ⟨r, hr, ?_⟩
  rw [leftOf, sub_mul, sub_div, Real.sin_sub]
  ring

/-- The sine over the half turn from 0° to 180°. -/
theorem sin_degrees_nonneg {φ : ℝ} (h0 : 0 ≤ φ) (h180 : φ ≤ 180) : 0 ≤ Real.sin (φ * Real.pi / 180) := by
  have hpi := Real.pi_pos
  exact Real.sin_nonneg_of_nonneg_of_le_pi (by positivity) (by nlinarith)

/-- The sine over the half turn from -180° to 0°. -/
theorem sin_degrees_nonpos {φ : ℝ} (h180 : -180 ≤ φ) (h0 : φ ≤ 0) : Real.sin (φ * Real.pi / 180) ≤ 0 := by
  have h := sin_degrees_nonneg (φ := -φ) (by linarith) (by linarith)
  rw [neg_mul, neg_div, Real.sin_neg] at h
  linarith

/-- The sine after a whole turn back. -/
theorem sin_degrees_sub_360 (φ : ℝ) : Real.sin ((φ - 360) * Real.pi / 180) = Real.sin (φ * Real.pi / 180) := by
  rw [← Real.sin_sub_two_pi (φ * Real.pi / 180)]
  congr 1
  ring

/-- A point strictly to the left of a direction has its angle in the half turn after that direction. -/
theorem IsAngleOf.of_leftOf_pos {θ s t α : ℝ} (h : IsAngleOf θ s t) (hα : 0 ≤ α ∧ α ≤ 180)
    (hpos : 0 < leftOf α s t) : α < θ ∧ θ < α + 180 := by
  obtain ⟨r, hr, heq⟩ := h.leftOf_eq α
  obtain ⟨h0, h360, -⟩ := h
  rw [heq] at hpos
  have hsin : 0 < Real.sin ((θ - α) * Real.pi / 180) := pos_of_mul_pos_right hpos hr.le
  constructor
  · by_contra hle
    exact hsin.not_ge (sin_degrees_nonpos (by linarith) (by linarith))
  · by_contra hge
    rw [← sin_degrees_sub_360] at hsin
    exact hsin.not_ge (sin_degrees_nonpos (by linarith) (by linarith))

/-- A point strictly to the right of a direction has its angle outside the half turn after that direction. -/
theorem IsAngleOf.of_leftOf_neg {θ s t α : ℝ} (h : IsAngleOf θ s t)
    (hneg : leftOf α s t < 0) : θ < α ∨ α + 180 < θ := by
  obtain ⟨r, hr, heq⟩ := h.leftOf_eq α
  by_contra! hbetween
  rw [heq] at hneg
  exact hneg.not_ge (mul_nonneg hr.le (sin_degrees_nonneg (by linarith) (by linarith)))

/-- A point whose angle is that of a direction, or the opposite of it, is on its line. -/
theorem IsAngleOf.leftOf_eq_zero {θ s t α : ℝ} (h : IsAngleOf θ s t) (hα : θ = α ∨ θ = α + 180) :
    leftOf α s t = 0 := by
  obtain ⟨r, -, heq⟩ := h.leftOf_eq α
  rw [heq]
  obtain rfl | rfl := hα <;> simp

/-! ### The eight edges (43_calibration.md R179, R180) -/

theorem leftOf_30 (s t : ℝ) : leftOf 30 s t = (√3 * t - s) / 2 := by
  rw [leftOf, show (30 : ℝ) * Real.pi / 180 = Real.pi / 6 by ring, Real.cos_pi_div_six, Real.sin_pi_div_six]
  ring

theorem leftOf_150 (s t : ℝ) : leftOf 150 s t = -(√3 * t + s) / 2 := by
  rw [leftOf, show (150 : ℝ) * Real.pi / 180 = Real.pi - Real.pi / 6 by ring, Real.cos_pi_sub, Real.sin_pi_sub,
    Real.cos_pi_div_six, Real.sin_pi_div_six]
  ring

/-- The lines at 30° to the vertical axis are those at 30° to the horizontal one with the axes exchanged. -/
theorem leftOf_30_swap (s t : ℝ) : leftOf 30 t s = -leftOf 60 s t := by
  rw [leftOf_30, leftOf, show (60 : ℝ) * Real.pi / 180 = Real.pi / 3 by ring, Real.cos_pi_div_three,
    Real.sin_pi_div_three]
  ring

theorem leftOf_150_swap (s t : ℝ) : leftOf 150 t s = leftOf 120 s t := by
  rw [leftOf_150, leftOf, show (120 : ℝ) * Real.pi / 180 = Real.pi - Real.pi / 3 by ring, Real.cos_pi_sub,
    Real.sin_pi_sub, Real.cos_pi_div_three, Real.sin_pi_div_three]
  ring

/-- A point within 30° of the horizontal axis is on one side of both lines at 30° to it. -/
theorem leftOf_of_near {s t : ℝ} (hnear : 3 * t ^ 2 < s ^ 2) :
    (0 < s → leftOf 30 s t < 0 ∧ leftOf 150 s t < 0) ∧ (s < 0 → 0 < leftOf 30 s t ∧ 0 < leftOf 150 s t) := by
  have habs : |√3 * t| < |s| := sq_lt_sq.1 (by rwa [mul_pow, Real.sq_sqrt (by norm_num)])
  obtain ⟨hlo, hhi⟩ := abs_lt.1 habs
  rw [leftOf_30, leftOf_150]
  refine ⟨fun hs => ?_, fun hs => ?_⟩
  · rw [abs_of_pos hs] at hlo hhi
    constructor <;> linarith
  · rw [abs_of_neg hs] at hlo hhi
    constructor <;> linarith

/-- A point over 30° from the horizontal axis is between the two lines at 30° to it. -/
theorem leftOf_of_far {s t : ℝ} (hfar : s ^ 2 < 3 * t ^ 2) :
    (0 < t → 0 < leftOf 30 s t ∧ leftOf 150 s t < 0) ∧ (t < 0 → leftOf 30 s t < 0 ∧ 0 < leftOf 150 s t) := by
  have habs : |s| < |√3 * t| := sq_lt_sq.1 (by rwa [mul_pow, Real.sq_sqrt (by norm_num)])
  rw [abs_mul, abs_of_nonneg (Real.sqrt_nonneg 3)] at habs
  obtain ⟨hlo, hhi⟩ := abs_lt.1 habs
  rw [leftOf_30, leftOf_150]
  refine ⟨fun ht => ?_, fun ht => ?_⟩
  · rw [abs_of_pos ht] at hlo hhi
    constructor <;> linarith
  · rw [abs_of_neg ht] at hlo hhi
    constructor <;> linarith

/-- A point on neither line at 30° to the horizontal axis. -/
theorem leftOf_ne_zero {s t : ℝ} (hne : s ^ 2 ≠ 3 * t ^ 2) : leftOf 30 s t ≠ 0 ∧ leftOf 150 s t ≠ 0 := by
  have hproduct : leftOf 30 s t * leftOf 150 s t = (s ^ 2 - 3 * t ^ 2) / 4 := by
    have hthree : √3 ^ 2 = 3 := Real.sq_sqrt (by norm_num)
    rw [leftOf_30, leftOf_150]
    linear_combination -(t ^ 2 / 4) * hthree
  exact mul_ne_zero_iff.1 (hproduct ▸ div_ne_zero (sub_ne_zero.2 hne) four_ne_zero)

/-- A point off the four lines has none of the eight angles of the edges. -/
theorem IsAngleOf.ne_edge {θ s t : ℝ} (h : IsAngleOf θ s t) (hst : s ^ 2 ≠ 3 * t ^ 2) (hts : t ^ 2 ≠ 3 * s ^ 2) :
    θ ≠ 30 ∧ θ ≠ 60 ∧ θ ≠ 120 ∧ θ ≠ 150 ∧ θ ≠ 210 ∧ θ ≠ 240 ∧ θ ≠ 300 ∧ θ ≠ 330 := by
  obtain ⟨h30, h150⟩ := leftOf_ne_zero hst
  obtain ⟨h60, h120⟩ := leftOf_ne_zero hts
  rw [leftOf_30_swap, neg_ne_zero] at h60
  rw [leftOf_150_swap] at h120
  have ne_of_off_line {α : ℝ} (hα : leftOf α s t ≠ 0) : θ ≠ α ∧ θ ≠ α + 180 := not_or.1
    fun hedge => hα (h.leftOf_eq_zero hedge)
  have e30 := ne_of_off_line h30
  have e60 := ne_of_off_line h60
  have e120 := ne_of_off_line h120
  have e150 := ne_of_off_line h150
  norm_num at e30 e60 e120 e150
  tauto

/-! ### The sector of an angle (43_calibration.md R178 to R180) -/

theorem IsAngleOf.inSector_horizontal {θ s t : ℝ} (h : IsAngleOf θ s t) (hnear : 3 * t ^ 2 < s ^ 2) :
    (0 < s → InSector θ .right) ∧ (s < 0 → InSector θ .left) := by
  obtain ⟨hpos, hneg⟩ := leftOf_of_near hnear
  refine ⟨fun hs => ?_, fun hs => ?_⟩
  · have h30 := h.of_leftOf_neg (hpos hs).1
    have h150 := h.of_leftOf_neg (hpos hs).2
    obtain ⟨h0, h360, -⟩ := h
    grind [InSector]
  · have h30 := h.of_leftOf_pos (by norm_num) (hneg hs).1
    have h150 := h.of_leftOf_pos (by norm_num) (hneg hs).2
    grind [InSector]

theorem IsAngleOf.inSector_vertical {θ s t : ℝ} (h : IsAngleOf θ s t) (hnear : 3 * s ^ 2 < t ^ 2) :
    (0 < t → InSector θ .up) ∧ (t < 0 → InSector θ .down) := by
  have hsides := leftOf_of_near hnear
  rw [leftOf_30_swap, leftOf_150_swap, neg_lt_zero, neg_pos] at hsides
  obtain ⟨hpos, hneg⟩ := hsides
  refine ⟨fun ht => ?_, fun ht => ?_⟩
  · have h60 := h.of_leftOf_pos (by norm_num) (hpos ht).1
    have h120 := h.of_leftOf_neg (hpos ht).2
    grind [InSector]
  · have h60 := h.of_leftOf_neg (hneg ht).1
    have h120 := h.of_leftOf_pos (by norm_num) (hneg ht).2
    grind [InSector]

theorem IsAngleOf.inSector_diagonal {θ s t : ℝ} (h : IsAngleOf θ s t) (hst : s ^ 2 < 3 * t ^ 2)
    (hts : t ^ 2 < 3 * s ^ 2) :
    (0 < s → 0 < t → InSector θ .upperRight) ∧ (0 < s → t < 0 → InSector θ .lowerRight) ∧
      (s < 0 → 0 < t → InSector θ .upperLeft) ∧ (s < 0 → t < 0 → InSector θ .lowerLeft) := by
  obtain ⟨hup, hdown⟩ := leftOf_of_far hst
  have hsides := leftOf_of_far hts
  rw [leftOf_30_swap, leftOf_150_swap, neg_lt_zero, neg_pos] at hsides
  obtain ⟨hright, hleft⟩ := hsides
  refine ⟨fun hs ht => ?_, fun hs ht => ?_, fun hs ht => ?_, fun hs ht => ?_⟩
  · have h30 := h.of_leftOf_pos (by norm_num) (hup ht).1
    have h60 := h.of_leftOf_neg (hright hs).1
    grind [InSector]
  · have h150 := h.of_leftOf_pos (by norm_num) (hdown ht).2
    have h120 := h.of_leftOf_neg (hright hs).2
    grind [InSector]
  · have h120 := h.of_leftOf_pos (by norm_num) (hleft hs).2
    have h150 := h.of_leftOf_neg (hup ht).2
    grind [InSector]
  · have h60 := h.of_leftOf_pos (by norm_num) (hleft hs).1
    have h30 := h.of_leftOf_neg (hdown ht).1
    grind [InSector]

/-! ### The sector step (43_calibration.md R176 to R180) -/

/-- A point with an angle is not the origin. -/
theorem IsAngleOf.ne_zero {θ s t : ℝ} (h : IsAngleOf θ s t) : ¬ (s = 0 ∧ t = 0) := by
  obtain ⟨-, -, r, hr, rfl, rfl⟩ := h
  rintro ⟨hcos, hsin⟩
  have hunit := Real.sin_sq_add_cos_sq (θ * Real.pi / 180)
  rw [(mul_eq_zero.1 hcos).resolve_left hr.ne', (mul_eq_zero.1 hsin).resolve_left hr.ne'] at hunit
  norm_num at hunit

/-- The sector step of offsets with divisors is that of the offsets brought to one divisor: both scale by the
product of the divisors. -/
theorem sector_mul_divisors {cx cy divX divY : Int} (hx : 0 < divX) (hy : 0 < divY) :
    sector cx cy divX divY = sector (cx * divY) (cy * divX) 1 1 := by
  simp only [sector, mul_mul_mul_comm _ divY, mul_mul_mul_comm _ divX, mul_one, gt_iff_lt,
    mul_pos_iff_of_pos_right hx, mul_pos_iff_of_pos_right hy]

/-- The angle of the normalised offsets is that of the offsets brought to one divisor. -/
theorem IsAngleOf.mul_divisors {θ : ℝ} {cx cy divX divY : Int} (hx : 0 < divX) (hy : 0 < divY)
    (h : IsAngleOf θ ((cx : ℝ) / (divX : ℝ)) ((cy : ℝ) / (divY : ℝ))) :
    IsAngleOf θ ((cx * divY : Int) : ℝ) ((cy * divX : Int) : ℝ) := by
  have hx' : (0 : ℝ) < divX := Int.cast_pos.2 hx
  have hy' : (0 : ℝ) < divY := Int.cast_pos.2 hy
  obtain ⟨h0, h360, r, hr, hs, ht⟩ := h
  rw [div_eq_iff hx'.ne'] at hs
  rw [div_eq_iff hy'.ne'] at ht
  refine ⟨h0, h360, r * divX * divY, by positivity, ?_, ?_⟩ <;> push_cast
  · rw [hs]
    ring
  · rw [ht]
    ring

/-- An offset that is not positive is negative, where the comparisons of the sector step show that it is not zero. -/
theorem neg_of_not_pos {m n : Int} (hsq : n ^ 2 < 3 * m ^ 2) (hm : ¬ 0 < m) : m < 0 := by
  refine lt_of_le_of_ne (not_lt.1 hm) ?_
  rintro rfl
  exact hsq.not_ge (by positivity)

/-- The sector step answers the sector that holds the angle. -/
theorem IsAngleOf.inSector_sector {θ : ℝ} {m n : Int} (h : IsAngleOf θ m n) : InSector θ (sector m n 1 1) := by
  have hne : ¬ (m = 0 ∧ n = 0) := by exact_mod_cast h.ne_zero
  obtain ⟨hmn, hnm⟩ := sq_ne_three_mul_sq hne
  have hm2 := sq_nonneg m
  have hn2 := sq_nonneg n
  simp only [sector, mul_one, gt_iff_lt]
  simp only [← pow_two]
  split_ifs with hnearx hm hneary hn hm hn hn
  · exact (h.inSector_horizontal (by exact_mod_cast hnearx)).1 (by exact_mod_cast hm)
  · have hneg := neg_of_not_pos (by linarith : n ^ 2 < 3 * m ^ 2) hm
    exact (h.inSector_horizontal (by exact_mod_cast hnearx)).2 (by exact_mod_cast hneg)
  · exact (h.inSector_vertical (by exact_mod_cast hneary)).1 (by exact_mod_cast hn)
  · have hneg := neg_of_not_pos (by linarith : m ^ 2 < 3 * n ^ 2) hn
    exact (h.inSector_vertical (by exact_mod_cast hneary)).2 (by exact_mod_cast hneg)
  all_goals
    have hst : m ^ 2 < 3 * n ^ 2 := lt_of_le_of_ne (not_lt.1 hnearx) hmn
    have hts : n ^ 2 < 3 * m ^ 2 := lt_of_le_of_ne (not_lt.1 hneary) hnm
    obtain ⟨hur, hlr, hul, hll⟩ := h.inSector_diagonal (by exact_mod_cast hst) (by exact_mod_cast hts)
  · exact hur (by exact_mod_cast hm) (by exact_mod_cast hn)
  · exact hlr (by exact_mod_cast hm) (by exact_mod_cast neg_of_not_pos hst hn)
  · exact hul (by exact_mod_cast neg_of_not_pos hts hm) (by exact_mod_cast hn)
  · exact hll (by exact_mod_cast neg_of_not_pos hts hm) (by exact_mod_cast neg_of_not_pos hst hn)

/-- The normalised, clamped offset is the clamped offset over its divisor (43_calibration.md R176). -/
theorem clampInt_div {d div : Int} (hdiv : 0 < div) :
    (clampInt d (-div) div : ℝ) / (div : ℝ) = min (max ((d : ℝ) / (div : ℝ)) (-1)) 1 := by
  have hdiv' : (0 : ℝ) < div := Int.cast_pos.2 hdiv
  rw [clampInt, Int.cast_min, Int.cast_max, ← min_div_div_right hdiv'.le, ← max_div_div_right hdiv'.le, Int.cast_neg,
    neg_div, div_self hdiv'.ne']

/-- Settles O42: the sector step holds the angle of the clamped offsets brought to one divisor. -/
theorem classifierIsTheAngleTable : Obligations.ClassifierIsTheAngleTable := by
  intro b h v midx midy θ hx hy hrangex hrangey hout hdivx hdivy hθ
  rw [← clampInt_div hdivx, ← clampInt_div hdivy] at hθ
  rw [classify_eq_sector hx hy hrangex hrangey hout hdivx hdivy, sector_mul_divisors hdivx hdivy]
  exact (hθ.mul_divisors hdivx hdivy).inSector_sector

/-- Settles O43: outside the deadzone the clamped offsets are not both zero, so their squares never tie. -/
theorem sectorEdgesAreNeverReached : Obligations.SectorEdgesAreNeverReached := by
  intro b h v x y dx dy cx cy A B hx hy hrangex hrangey hdx hdy hout hdivx hdivy hcx hcy hA hB
  have hclassify : classify b h v = sector cx cy x.divisor y.divisor := by
    subst hx hy hdx hdy hcx hcy
    exact classify_eq_sector (axisOf_mid _ _ _) (axisOf_mid _ _ _) ((axisOf_empty _ _ _).not.1 hrangex.not_ge)
      ((axisOf_empty _ _ _).not.1 hrangey.not_ge) hout hdivx hdivy
  have hne : ¬ (cx * y.divisor = 0 ∧ cy * x.divisor = 0) := by
    rw [mul_eq_zero_iff_right hdivy.ne', mul_eq_zero_iff_right hdivx.ne', hcx, hcy, clampInt_eq_zero_iff dx hdivx,
      clampInt_eq_zero_iff dy hdivy]
    rintro ⟨rfl, rfl⟩
    exact hout.not_ge (by positivity)
  obtain ⟨hAB, hBA⟩ := sq_ne_three_mul_sq hne
  have hedges (θ : ℝ) (hθ : IsAngleOf θ ((cx : ℝ) / (x.divisor : ℝ)) ((cy : ℝ) / (y.divisor : ℝ))) :=
    (hθ.mul_divisors hdivx hdivy).ne_edge (by exact_mod_cast hAB) (by exact_mod_cast hBA)
  rw [mul_pow, mul_pow, ← hA, ← hB] at hAB hBA
  have hA0 : 0 ≤ A := hA ▸ by positivity
  have hB0 : 0 ≤ B := hB ▸ by positivity
  exact ⟨hclassify, hAB, hBA, by omega, hedges⟩

end Sys2Proof.Machine
end

section
/-! PROOFS. SESSION_CLEAR and the reserved rows in every state (44_control.md R201, R202). -/

namespace Sys2Proof.Machine

/-- Clearing the session resets the served instance from its own SEQ; its port, its responses and the environment
stay (44_control.md R201). -/
theorem State.clearSession_eq (s : State) :
    s.clearSession =
      { s with toBlock := { Block.reset s.seq with stream := s.stream, responses := s.responses } } := rfl

/-- SESSION_CLEAR answers OK from the cleared state. -/
theorem exec_sessionClear (s : State) : exec .sessionClear s = s.clearSession.respond .ok .none := rfl

/-- Settles O47: the response is added to the cleared state, whose registers are those of a reset from SEQ. -/
theorem sessionClearKeepsOnlySeq : Obligations.SessionClearKeepsOnlySeq := by
  intro s
  rw [exec_sessionClear, State.respond_eq, State.clearSession_eq]
  exact ⟨_, rfl, rfl, rfl, rfl, rfl⟩

/-- Settles O48: each of the four rows is a reserved row, which only raises ILLEGAL_COMMAND. -/
theorem reservedRowsAnswerIllegalCommand : Obligations.ReservedRowsAnswerIllegalCommand := by
  intro s op cmd i hrow
  have hreserved : IsReservedRow i := hrow.imp_right (Or.imp_right (Or.imp (⟨op, ·⟩) (⟨cmd, ·⟩)))
  exact hreserved.exec_eq s

end Sys2Proof.Machine
end

section
/-! PROOFS. What an exception leaves of the state (60_exceptions.md R212), and that a command whose bytes have not all
arrived is not executed (60_exceptions.md R225). -/

namespace Sys2Proof.Machine

/-! ### A stream that ends inside a command (60_exceptions.md R225) -/

/-- No command's encoding is a proper prefix of another's, so nothing decodes from a proper prefix of one: what decoded
there would decode from the whole encoding too, with bytes left over. -/
theorem decode_take_ne_ok {i : Instr} {n : Nat} (hwf : i.wellFormed = true) (hcmd : i.isCommand = true)
    (hn : n < (encode i).length) (j : Instr) (rest : List Byte) : decode ((encode i).take n) ≠ .ok (j, rest) := by
  intro hdecode
  obtain ⟨hwfj, hcmdj, hprefix, -⟩ := decodedBytesAreTheEncoding _ _ _ hdecode
  have hwhole : encode i = encode j ++ (rest ++ (encode i).drop n) := by
    rw [← List.append_assoc, ← hprefix, List.take_append_drop]
  have hi : decode (encode i) = .ok (i, []) := by
    simpa using decodeReadsBackEncodedCommand i [] hwf hcmd
  rw [hwhole, decodeReadsBackEncodedCommand j _ hwfj hcmdj] at hi
  have hleft : rest ++ (encode i).drop n = [] := (Prod.mk.inj (Except.ok.inj hi)).2
  exact absurd (List.drop_eq_nil_iff.1 (List.append_eq_nil_iff.1 hleft).2) (by omega)

/-- Settles O9: nothing decodes from the front of a command, and then a step waits. -/
theorem incompleteCommandIsNotExecuted : Obligations.IncompleteCommandIsNotExecuted := by
  intro s i n hwf hcmd hn hturns hstream
  cases hdecode : decode s.takeTurn.stream with
  | error e => rw [step_of_reject s e hdecode, s.takeTurn_nil hturns]
  | ok read =>
    rw [s.takeTurn_nil hturns, hstream] at hdecode
    exact absurd hdecode (decode_take_ne_ok hwf hcmd hn read.1 read.2)

/-! ### What a status leaves of the state (60_exceptions.md R212) -/

/-- `State.afterStatus` written out status by status. -/
theorem State.eq_afterStatus_iff (s t : State) (st : Status) (rs : List Response) :
    t = { s.afterStatus st with responses := rs } ↔
      if st = .nack ∨ st = .timeout then t = { s with flashPend := false, responses := rs }
      else if st = .needFactory then t = { s with calState := .needFactory, responses := rs }
      else t = { s with responses := rs } := by
  cases st <;> rfl

/-- Settles O12: a status other than OK hands back no result and leaves `State.afterStatus`. -/
theorem statusDecidesWhatIsWritten : Obligations.StatusDecidesWhatIsWritten := by
  intro i s t st r hexec hresp hst
  obtain ⟨-, hleft⟩ := exec_next_response i s t st r hexec hresp
  obtain ⟨hnone, ht⟩ := hleft hst
  exact ⟨hnone, (s.eq_afterStatus_iff t st t.responses).1 ht⟩

end Sys2Proof.Machine
end

section
/-! PROOFS. The frame kinds of the wire (70_reset_and_hazards.md R255), and the registers of every instance after
power-on reset (70_reset_and_hazards.md R240). -/

namespace Sys2Proof.Machine

/-! ### Frames on the transport (70_reset_and_hazards.md R255) -/

/-- Settles O49: the meaning of each of the five rows is `refuseTransport` with the row's own name, and it looks at
neither the frame nor the state. -/
theorem wireFramesAreRefused : Obligations.WireFramesAreRefused :=
  fun _ _ => ⟨rfl, rfl, rfl, rfl, rfl⟩

/-! ### Power-on reset (70_reset_and_hazards.md R240) -/

/-- The other instance in place `k` starts from reset with its own SEQ_INIT. -/
theorem State.eq_blockReset_of_reset_peers {k : Nat} {b : Block} (h : State.reset.peers[k]? = some b) :
    b = Block.reset (Config.seqInit (k + 1)) := by
  obtain ⟨j, hj, rfl⟩ := Option.map_eq_some_iff.1 (List.getElem?_map.symm.trans h)
  obtain ⟨-, rfl⟩ := List.getElem?_eq_some_iff.1 hj
  rw [List.getElem_range]

/-- Every instance starts from reset with some SEQ_INIT. -/
theorem State.exists_eq_blockReset {b : Block} (h : b = State.reset.toBlock ∨ b ∈ State.reset.peers) :
    ∃ q, b = Block.reset q := by
  obtain rfl | hpeer := h
  · exact ⟨_, rfl⟩
  · obtain ⟨_, hk⟩ := List.mem_iff_getElem?.1 hpeer
    exact ⟨_, State.eq_blockReset_of_reset_peers hk⟩

/-- Settles O50: every instance is `Block.reset` of its SEQ_INIT, which sets the other registers whatever that is. -/
theorem resetLeavesTheResetValues : Obligations.ResetLeavesTheResetValues := by
  refine ⟨rfl, fun k b hpeer => ?_, fun b hb => ?_⟩
  · rw [State.eq_blockReset_of_reset_peers hpeer]
    rfl
  · obtain ⟨q, rfl⟩ := State.exists_eq_blockReset hb
    exact ⟨rfl, rfl, rfl, rfl, rfl, rfl, rfl, rfl, rfl, rfl, rfl⟩

end Sys2Proof.Machine
end
